-- ==== Sys2Proof/Word.lean ====
section
/-! DEFINITION. The word types of the HMP-1116 (00_scope.md rule R6): a byte, a halfword, a fullword and a doubleword of
bits, and the narrow fields the instruction word and the PSW are cut into. -/

namespace Sys2Proof

/-- 8 bits. -/
abbrev Byte := BitVec 8

/-- A halfword, 16 bits: a general register, an address within a bank. -/
abbrev Half := BitVec 16

/-- A fullword, 32 bits: a register pair, a floating-point word, a PSW in memory. -/
abbrev Full := BitVec 32

/-- A doubleword, 64 bits: four consecutive registers. -/
abbrev Dbl := BitVec 64

/-- A 4-bit field of the instruction word: R1, R2, X2, M1 or N (30_encoding.md rule R91). -/
abbrev RegNo := BitVec 4

/-- A 2-bit bank number (20_memory.md rule R60). -/
abbrev BankNo := BitVec 2

end Sys2Proof
end

