-- ==== Sys2Proof/Config.lean ====
section
/-! DEFINITION. What one installation of the HMP-1116 fixes, the parameters of 00_scope.md rule R4, and the free values.
A free value is an opaque constant applied to the counter `State.draws` (log 7) or to the operands it depends on (logs 15
and 17). Nothing can prove which value it is. -/

namespace Sys2Proof.Machine

/-- The outcomes of floating-point arithmetic (46_floating_point.md rule R283). -/
inductive FloatResult where
  /-- TRUE_ZERO. -/
  | zero
  /-- A normalized number: sign, true exponent, fraction. -/
  | num (neg : Bool) (e : Int) (f : Nat)
  /-- Exponent overflow. -/
  | overflow (neg : Bool)
  /-- Exponent underflow. -/
  | underflow
  /-- A zero divisor. -/
  | divideByZero
deriving DecidableEq, Repr, Inhabited

end Sys2Proof.Machine

namespace Sys2Proof.Config

/-- An UNDEF bit (00_scope.md rule R9), one for each draw (log 7). -/
opaque undefBit : Nat → Bool

/-- Sixteen UNDEF bits, for each draw (log 7). -/
opaque undefHalf : Nat → Half

/-- The two readings of BX_COMPARE, how BXH and BXLE compare the index with its limit (45_branch.md rule R270). -/
inductive IndexCompare where
  /-- As unsigned numbers, the spec's default. -/
  | logical
  /-- As signed numbers. -/
  | signed
deriving DecidableEq, Repr

/-- The two readings of MH_MULTIPLICAND, the register MHR and MH multiply (41_arithmetic.md rule R170). -/
inductive Multiplicand where
  /-- R1, the spec's default. -/
  | first
  /-- R1+1. -/
  | second
deriving DecidableEq, Repr

/-- The two readings of ATN_QUADRANT, the angle of ATNR and ATN where x is not positive (49_list_trig_augment.md rule
R377). -/
inductive Quadrant where
  /-- The angle is resolved to the quadrant of (x, y). -/
  | resolved
  /-- The angle is the principal value of arctan(y/x). -/
  | principal
deriving DecidableEq, Repr

/-- Which `fp_add`, `fp_sub`, `fp_mul` and `fp_div` a machine has (46_floating_point.md rules R284 to R286, log 15). -/
inductive FloatUnit where
  /-- The reference definitions, the spec's default. -/
  | reference
  /-- Functions of the installation, `fpAdd` and the others below, held to what every admissible function satisfies. -/
  | installed
deriving DecidableEq, Repr

/-- The three disputed operation codes (00_scope.md rule R4, log 12). -/
structure OperationCodes where
  /-- OP_AER. -/
  aer : Byte
  /-- OP_SRQL. -/
  srql : Byte
  /-- OP_SRQA. -/
  srqa : Byte
deriving DecidableEq, Repr

/-- The operation codes at the spec's values (00_scope.md rule R4). -/
def OperationCodes.standard : OperationCodes := { aer := 0x2a, srql := 0xe8, srqa := 0xe6 }

/-- Consecutive physical addresses. -/
structure Region where
  /-- The lowest address. -/
  first : Nat
  /-- How many addresses. -/
  count : Nat
deriving DecidableEq, Repr

/-- The parameters of 00_scope.md rule R4 that one installation fixes and no instruction changes (log 50). -/
structure Installation where
  /-- MEM_PRESENT: the physical addresses that hold memory (20_memory.md rule R62). -/
  present : List Region
  /-- MEM_READONLY: those among them that ignore writes (rule R62). -/
  readOnly : List Region
  /-- OP_AER, OP_SRQL and OP_SRQA. -/
  codes : OperationCodes
  /-- BX_COMPARE. -/
  indexCompare : IndexCompare
  /-- MH_MULTIPLICAND. -/
  multiplicand : Multiplicand
  /-- ATN_QUADRANT. -/
  quadrant : Quadrant
  /-- The floating-point numerics. -/
  floatUnit : FloatUnit
deriving DecidableEq, Repr

/-- Every parameter at the spec's default: all four banks present and writable (20_memory.md rule R62), the operation
codes and readings of 00_scope.md rule R4. ATN_QUADRANT is open and has no default: DESIGN CHOICE (log 50). -/
def Installation.standard : Installation :=
  { present := [⟨0, 262144⟩]
    readOnly := []
    codes := OperationCodes.standard
    indexCompare := .logical
    multiplicand := .first
    quadrant := .resolved
    floatUnit := .reference }

/-- `fp_add` of an installation, before it is held to what the spec fixes (rule R284, log 15). -/
opaque fpAdd : (a b : Full) → Machine.FloatResult

/-- `fp_sub` of an installation, likewise. -/
opaque fpSub : (a b : Full) → Machine.FloatResult

/-- Whether `fp_mul` of an installation rounds a product that has no 24-bit fraction up (rule R285, log 15). -/
opaque fpMulRoundsUp : (a b : Full) → Bool

/-- Whether `fp_div` of an installation rounds a quotient that has no 24-bit fraction up (rule R286, log 15). -/
opaque fpDivRoundsUp : (a b : Full) → Bool

/-- `cordic_cos` (49_list_trig_augment.md rule R373): cosine and sine of a BAMS angle at a CPR value, before the bounds of
Table VI-3 are imposed on them (log 17). -/
opaque cordicCos : (angle : Full) → (precision : Nat) → Int × Int

/-- `cordic_asn` (rule R375): the BAMS angle whose sine is y/z at a CPR value, before the bound (log 17). -/
opaque cordicAsn : (z y : Full) → (precision : Nat) → Int

/-- The angle of `cordic_atn` (rule R377): the principal value of arctan(y/x) in BAMS at a CPR value, before the bound
(log 17). -/
opaque cordicAtn : (x y : Full) → (precision : Nat) → Int

/-- The magnitude of `cordic_atn` (rule R377), before the bound (log 17). -/
opaque cordicMagnitude : (x y : Full) → (precision : Nat) → Int

/-- Whether `cordic_atn` (rule R377) reports overflow where the source lets it do either (log 17). -/
opaque cordicOverflow : (x y : Full) → (precision : Nat) → Bool

/-- `cordic_sqd` (rule R379), before the bound (log 17). -/
opaque cordicSqd : (x y : Full) → (precision : Nat) → Int

end Sys2Proof.Config
end

