-- ==== Sys2Proof/Machine/State.lean ====
section
/-! DEFINITION. The state of the HMP-1116 (10_state.md rule R40), its state after reset, and the reasons a step can stop.
State is plain data: a register file, the PSW, memory, the CORDIC precision register and the environment's answers. -/

namespace Sys2Proof.Machine

/-- The condition code, PSW bits 12:15 (10_state.md rule R33). -/
structure CC where
  /-- Carry, bit 12. -/
  C : Bool
  /-- Overflow, bit 13. -/
  V : Bool
  /-- Greater than, bit 14. -/
  G : Bool
  /-- Less than, bit 15. -/
  L : Bool
deriving DecidableEq, Repr

/-- PSW bits 0:7, the control bits (10_state.md rule R23). -/
structure Control where
  /-- Wait state, bit 0. -/
  WT : Bool
  /-- External interrupt enable, bit 1. -/
  EI : Bool
  /-- Machine Malfunction enable, bit 2. -/
  MM : Bool
  /-- Fixed-Point Divide Fault enable, bit 3. -/
  DF : Bool
  /-- Automatic I/O Service enable, bit 4. -/
  AS : Bool
  /-- Floating-Point Arithmetic Fault enable, bit 5. -/
  FP : Bool
  /-- Channel Termination enable, bit 6. -/
  CT : Bool
  /-- Protect Mode, bit 7. -/
  PM : Bool
deriving DecidableEq, Repr

/-- The Program Status Word (10_state.md rule R23). Every bit is assigned; the 32-bit word is `Psw.full`. -/
structure Psw where
  /-- Bits 0:7. -/
  control : Control
  /-- Bits 8:9, the instruction bank. -/
  IB : BankNo
  /-- Bits 10:11, the operand bank. -/
  OB : BankNo
  /-- Bits 12:15, the condition code. -/
  cc : CC
  /-- Bits 16:31, the location counter. -/
  LOC : Half
deriving DecidableEq, Repr

/-- The CORDIC precision register holds one of four values (10_state.md rule R35). -/
inductive Cpr where
  /-- 16. -/
  | p16
  /-- 20. -/
  | p20
  /-- 24. -/
  | p24
  /-- 28. -/
  | p28
deriving DecidableEq, Repr

/-- The parity input of a boundary (60_exceptions.md rule R440). -/
inductive Parity where
  /-- No parity error. -/
  | none
  /-- A parity error on instruction read. -/
  | instructionRead
  /-- A parity error on an operand read. -/
  | operandRead
deriving DecidableEq, Repr

/-- The power input of a boundary (60_exceptions.md rules R410, R436, R437). -/
inductive PowerEvent where
  /-- None. -/
  | none
  /-- The Advance Power Failure signal is asserted. -/
  | advanceFailure
  /-- 1.6 milliseconds after the signal: the hardware power-down sequence. -/
  | shutdown
  /-- Power is restored; whether memory has remained operational. -/
  | restored (memoryValid : Bool)
deriving DecidableEq, Repr

/-- A byte that an agent other than the Processor writes, at a physical address (20_memory.md rules R75, R76). -/
structure AgentWrite where
  /-- The physical address. -/
  address : BitVec 18
  /-- The byte. -/
  value : Byte
deriving DecidableEq, Repr

/-- What the environment supplies at one step (60_exceptions.md rule R440, log 19). -/
structure Boundary where
  /-- Level of the Attention line. -/
  attention : Bool
  /-- The parity event. -/
  parity : Parity
  /-- The power event. -/
  power : PowerEvent
  /-- A channel operation has just stored a termination pointer (rule R416, log 21). -/
  termination : Bool
  /-- A termination pointer found the Termination Queue full (rule R417, log 21). -/
  overflow : Option Half
  /-- There is an entry in the Termination Queue (rule R416, log 21). -/
  queueEntry : Bool
  /-- Writes to memory by DMA agents before the step, in their order (log 35). -/
  dma : List AgentWrite
  /-- INT_ARBITRATION's choice among simultaneous conditions (rule R418, log 20). -/
  choice : Nat
deriving DecidableEq, Repr

/-- A call of the device oracle with its arguments (48_input_output.md rule R330). `Dev.attention()` is none of them: its
sample is the Attention level of the boundary input, and whether samples belong to the observable sequence of calls
(70_reset_and_hazards.md rule R464) is the model's choice (DESIGN CHOICE, log 18). -/
inductive DevCall where
  /-- `Dev.select(d)`. -/
  | select (d : Byte)
  /-- `Dev.status(d)`. -/
  | status (d : Byte)
  /-- `Dev.command(d, b)`. -/
  | command (d b : Byte)
  /-- `Dev.read(d)`. -/
  | read (d : Byte)
  /-- `Dev.write(d, b)`. -/
  | write (d b : Byte)
  /-- `Dev.read_h(d)`. -/
  | readHalf (d : Byte)
  /-- `Dev.write_h(d, h)`. -/
  | writeHalf (d : Byte) (h : Half)
  /-- `Dev.acknowledge()`. -/
  | acknowledge
deriving DecidableEq, Repr

/-- The environment (10_state.md rules R37, R40): the inputs of the coming boundaries and the answers of the device
oracle, each a queue whose head answers the next call (log 18), and the calls made. -/
structure Env where
  /-- One input for each coming step; the empty list is the quiet environment of 60_exceptions.md rule R440. -/
  inputs : List Boundary
  /-- "There is an entry in the queue" as LPSW and EPSR test it (47_system_control.md rule R316). -/
  queueEntry : Bool
  /-- Answers of `Dev.select`: true is `sync`, false is `timeout`. -/
  selects : List Bool
  /-- Answers of `Dev.status`. -/
  statuses : List Byte
  /-- Answers of `Dev.command`. -/
  commands : List Bool
  /-- Answers of `Dev.read`. -/
  reads : List Byte
  /-- Answers of `Dev.read_h`. -/
  readHalves : List Half
  /-- Answers of `Dev.acknowledge`: the device that answers, with its status byte, or none (rule R332). -/
  acks : List (Option (Byte × Byte))
  /-- What other agents write before each coming transfer between the Processor and memory (20_memory.md rule R76(c),
  log 35). -/
  transfers : List (List AgentWrite)
  /-- The calls made so far, newest first (70_reset_and_hazards.md rule R464). -/
  calls : List DevCall
deriving DecidableEq, Repr

/-- The power mode (60_exceptions.md rules R430, R437, R438). -/
inductive Power where
  /-- Operational. -/
  | operational
  /-- Powered down with the state saved, waiting for a restart. -/
  | standBy
deriving DecidableEq, Repr

/-- The machine state (10_state.md rule R40). -/
structure State where
  /-- The sixteen general registers (rule R20). -/
  x : Vector Half 16
  /-- The Program Status Word (rule R22). -/
  psw : Psw
  /-- Memory: physical address `bank * 65536 + address` and byte, in the canonical form `Memory.wf`
  (20_memory.md rule R60). The floating-point registers are bytes 00-1F of bank 0 (rule R34). -/
  mem : List Host.Cell
  /-- The CORDIC precision register (rule R35). -/
  cpr : Cpr
  /-- The environment (rule R37). -/
  env : Env
  /-- The parameters of the installation, which no step changes (00_scope.md rule R4, log 50). -/
  install : Config.Installation
  /-- The power mode. -/
  power : Power
  /-- "Run mode" of the maintenance panel, read at a restart (60_exceptions.md rule R436). -/
  runMode : Bool
  /-- The MODEL's own field: how many UNDEF draws have been made (log 7). -/
  draws : Nat
deriving DecidableEq, Repr

/-- Reasons the machine stops with a fault. Both are accesses the spec calls UNSPECIFIED and a model refuses; the
hardware goes on in some way the source does not give, so stopping is safe. -/
inductive Fault where
  /-- A halfword, fullword or floating-point operand at an odd address: raised by the operand accesses
  (20_memory.md rule R69, log 8). Safe. -/
  | oddOperandAddress
  /-- An odd location counter at an instruction fetch: raised by the fetch (10_state.md rule R31, log 9). Safe. -/
  | oddLocationCounter
deriving DecidableEq, Repr

/-- A register field of an instruction that can break a restriction. -/
inductive Field where
  /-- The R1 field. -/
  | R1
  /-- The R2 field. -/
  | R2
  /-- The X2 field. -/
  | X2
deriving DecidableEq, Repr

/-- Reasons a step has no meaning. Each but the first is a case the spec marks UNSPECIFIED: refusing is safe. -/
inductive Refusal where
  /-- An instruction with no meaning yet: raised by `exec`. Safe. -/
  | notModelled (mnemonic : String)
  /-- A register field that breaks a restriction of 30_encoding.md rule R98: raised by the meanings (log 10). Safe. -/
  | reservedRegister (field : Field)
  /-- A nonzero field that must be zero (30_encoding.md rule R99): raised by LPSW, SINT, AL, SESB and RESB
  (log 11). Safe. -/
  | mustBeZero (field : Field)
  /-- A device number with a nonzero high byte (48_input_output.md rule R331): raised by the I/O instructions
  (log 31). Safe. -/
  | deviceNumberHighByte
  /-- A Service Pointer that names a Channel Command Word (60_exceptions.md rule R415): raised by the Immediate
  Interrupt and SINT (log 21). Safe. -/
  | channelCommandWord
  /-- Attention asserted and no device acknowledges (60_exceptions.md rule R414): raised by the Immediate Interrupt
  (log 18). Safe. -/
  | noAcknowledge
  /-- Autoload with an operand bank other than 0 or an end address below X'80' (48_input_output.md rule R353): raised
  by AL (log 32). Safe. -/
  | autoloadRange
  /-- An inconsistent list header (49_list_trig_augment.md rule R360): raised by ATL, ABL, RTL and RBL (log 33).
  Safe. -/
  | listHeader
  /-- An access to an address that holds no memory (20_memory.md rule R62): raised by every access of the Processor to
  memory (log 50). Safe. -/
  | absentMemory
  /-- Power restored with memory lost: the Start-up sequence, whose figure is lost (70_reset_and_hazards.md rule
  R450): raised by the restart (log 34). Safe. -/
  | startUpSequence
  /-- A restart with the Processor not in Run mode (70_reset_and_hazards.md rule R452): raised by the restart
  (log 34). Safe. -/
  | notInRunMode
deriving DecidableEq, Repr

/-- The result of a step or of a meaning. -/
abbrev Outcome := Host.Outcome State Fault Refusal

/-- No device has answered, no input is waiting (60_exceptions.md rule R440: the default environment). -/
def Env.quiet : Env :=
  { inputs := [], queueEntry := false, selects := [], statuses := [], commands := [], reads := [],
    readHalves := [], acks := [], transfers := [], calls := [] }

/-- The PSW after reset, X'0000 0100': the source states none (10_state.md rule R39); DESIGN CHOICE (log 4). -/
def Psw.reset : Psw :=
  { control := ⟨false, false, false, false, false, false, false, false⟩
    IB := 0
    OB := 0
    cc := ⟨false, false, false, false⟩
    LOC := 0x0100 }

/-- The machine right after reset. The source states no value of any register, PSW field or memory location after a
cold start (10_state.md rule R39, 70_reset_and_hazards.md rule R450): every value here is a DESIGN CHOICE (log 2 to
log 7, log 50). -/
def State.reset : State :=
  { x := Vector.replicate 16 0
    psw := Psw.reset
    mem := []
    cpr := .p16
    env := Env.quiet
    install := Config.Installation.standard
    power := .operational
    runMode := true
    draws := 0 }

end Sys2Proof.Machine
end

