-- ==== Sys2Proof/Machine/Ops.lean ====
section
/-! DEFINITION. The named operations over registers, the PSW and memory, the checks an instruction makes before it acts,
and taking an interrupt (60_exceptions.md rule R404) with the return from one beside it. -/

namespace Sys2Proof.Machine

/-! ## General registers (10_state.md rules R20, R21) -/

/-- `x[r]`. -/
def State.reg (s : State) (r : RegNo) : Half := s.x[r.toNat]'r.isLt

/-- `x[r] <- v`. -/
def State.setReg (s : State) (r : RegNo) (v : Half) : State := { s with x := s.x.set r.toNat v r.isLt }

/-- `xp[r]`, the fullword in x[r] and x[r+1], x[r] the more significant half. -/
def State.pair (s : State) (r : RegNo) : Full := s.reg r ++ s.reg (r + 1)

/-- `xp[r] <- v`. -/
def State.setPair (s : State) (r : RegNo) (v : Full) : State :=
  (s.setReg r (v.extractLsb' 16 16)).setReg (r + 1) (v.extractLsb' 0 16)

/-- `xq[r]`, the doubleword in four registers, x[r] the most significant. -/
def State.quad (s : State) (r : RegNo) : Dbl := s.pair r ++ s.pair (r + 2)

/-- `xq[r] <- v`. -/
def State.setQuad (s : State) (r : RegNo) (v : Dbl) : State :=
  (s.setPair r (v.extractLsb' 32 32)).setPair (r + 2) (v.extractLsb' 0 32)

/-- The value of the CPR (10_state.md rule R35). -/
def Cpr.toNat : Cpr → Nat
  | .p16 => 16
  | .p20 => 20
  | .p24 => 24
  | .p28 => 28

/-- The CPR value 16 + 4 * b, which masking and forcing bits leaves (49_list_trig_augment.md rule R372). -/
def Cpr.ofBits (b : BitVec 2) : Cpr :=
  match b.toNat with
  | 0 => .p16
  | 1 => .p20
  | 2 => .p24
  | _ => .p28

/-! ## The Program Status Word (10_state.md rules R22 to R24) -/

/-- PSW bits 12:15 as the 4-bit number `C*8 + V*4 + G*2 + L` (rule R33). -/
def CC.bits (c : CC) : BitVec 4 :=
  BitVec.ofBool c.C ++ BitVec.ofBool c.V ++ BitVec.ofBool c.G ++ BitVec.ofBool c.L

/-- The condition code that four bits name. -/
def CC.ofBits (b : BitVec 4) : CC :=
  { C := b.getLsbD 3, V := b.getLsbD 2, G := b.getLsbD 1, L := b.getLsbD 0 }

/-- PSW bits 0:7 as a byte. -/
def Control.bits (c : Control) : Byte :=
  BitVec.ofBool c.WT ++ BitVec.ofBool c.EI ++ BitVec.ofBool c.MM ++ BitVec.ofBool c.DF ++
    BitVec.ofBool c.AS ++ BitVec.ofBool c.FP ++ BitVec.ofBool c.CT ++ BitVec.ofBool c.PM

/-- The control bits that a byte names. -/
def Control.ofBits (b : Byte) : Control :=
  { WT := b.getLsbD 7, EI := b.getLsbD 6, MM := b.getLsbD 5, DF := b.getLsbD 4
    AS := b.getLsbD 3, FP := b.getLsbD 2, CT := b.getLsbD 1, PM := b.getLsbD 0 }

/-- `PSW.STATUS`, bits 0:15 (rule R24). -/
def Psw.status (p : Psw) : Half := p.control.bits ++ p.IB ++ p.OB ++ p.cc.bits

/-- `PSW<0:31>`. -/
def Psw.full (p : Psw) : Full := p.status ++ p.LOC

/-- `PSW<0:15> <- h`. -/
def Psw.withStatus (p : Psw) (h : Half) : Psw :=
  { p with
    control := Control.ofBits (h.extractLsb' 8 8)
    IB := h.extractLsb' 6 2
    OB := h.extractLsb' 4 2
    cc := CC.ofBits (h.extractLsb' 0 4) }

/-- The PSW that a fullword names. -/
def Psw.ofFull (w : Full) : Psw :=
  { control := Control.ofBits (w.extractLsb' 24 8)
    IB := w.extractLsb' 22 2
    OB := w.extractLsb' 20 2
    cc := CC.ofBits (w.extractLsb' 16 4)
    LOC := w.extractLsb' 0 16 }

/-- Replaces the PSW. -/
def State.setPsw (s : State) (p : Psw) : State := { s with psw := p }

/-- `CC <- c`. -/
def State.setCC (s : State) (c : CC) : State := { s with psw := { s.psw with cc := c } }

/-- `PSW<16:31> <- a`. -/
def State.jump (s : State) (a : Half) : State := { s with psw := { s.psw with LOC := a } }

/-- The normal advance past an instruction of `len` bytes, modulo 2^16 (rule R32). -/
def State.advance (s : State) (len : Half) : State := s.jump (s.psw.LOC + len)

/-- The UNDEF bit of draw `k` from here (00_scope.md rule R9, log 7). -/
def State.undef (s : State) (k : Nat) : Bool := Config.undefBit (s.draws + k)

/-- The 16 UNDEF bits of draw `k` from here (log 7). -/
def State.undefHalf (s : State) (k : Nat) : Half := Config.undefHalf (s.draws + k)

/-- The 32 UNDEF bits of draws `k` and `k + 1` from here (log 7). -/
def State.undefFull (s : State) (k : Nat) : Full := s.undefHalf k ++ s.undefHalf (k + 1)

/-- Four UNDEF flags, draws `k` to `k + 3`. -/
def State.undefCC (s : State) (k : Nat) : CC := ⟨s.undef k, s.undef (k + 1), s.undef (k + 2), s.undef (k + 3)⟩

/-- Counts `n` draws as made. -/
def State.drew (s : State) (n : Nat) : State := { s with draws := s.draws + n }

/-! ## Memory (20_memory.md) -/

/-- The physical byte address `bank || address`, 18 bits (rule R60). -/
def physical (b : BankNo) (a : Half) : Nat := b.toNat * 65536 + a.toNat

/-- What a byte that memory does not list reads as. The spec calls it UNSPECIFIED (10_state.md rule R39) and its test
harness takes zero (70_reset_and_hazards.md rule R465): DESIGN CHOICE (log 2). -/
def background : Byte := 0

/-- The byte at a physical address. -/
def Memory.read : List Host.Cell → Nat → Byte
  | [], _ => background
  | (k, v) :: rest, a => if k = a then v else Memory.read rest a

/-- Puts a byte into its place of a rising list. -/
def Memory.insert : List Host.Cell → Nat → Byte → List Host.Cell
  | [], a, v => [(a, v)]
  | (k, w) :: rest, a, v =>
    if a < k then (a, v) :: (k, w) :: rest
    else if a = k then (a, v) :: rest
    else (k, w) :: Memory.insert rest a v

/-- Takes an address out of the list. -/
def Memory.erase : List Host.Cell → Nat → List Host.Cell
  | [], _ => []
  | (k, w) :: rest, a => if k = a then Memory.erase rest a else (k, w) :: Memory.erase rest a

/-- Writes a byte. Writing what an unlisted address reads as takes the entry out. -/
def Memory.write (m : List Host.Cell) (a : Nat) (v : Byte) : List Host.Cell :=
  if v = background then Memory.erase m a else Memory.insert m a v

/-- The canonical form above a lower bound: addresses strictly rising and below 2^18, no byte that an unlisted address
reads as. -/
def Memory.wfFrom : Nat → List Host.Cell → Bool
  | _, [] => true
  | low, (k, v) :: rest => decide (low ≤ k) && decide (k < 262144) && decide (v ≠ background) && Memory.wfFrom (k + 1) rest

/-- The canonical form: equal memories are equal lists. -/
def Memory.wf (m : List Host.Cell) : Bool := Memory.wfFrom 0 m

/-- The byte at an address of a bank. -/
def State.byteAt (s : State) (b : BankNo) (a : Half) : Byte := Memory.read s.mem (physical b a)

/-- The halfword in two bytes, the more significant first (rule R66). -/
def State.halfAt (s : State) (b : BankNo) (a : Half) : Half := s.byteAt b a ++ s.byteAt b (a + 1)

/-- The fullword in two halfwords, the more significant at the lower address; the second address is modulo 2^16 (rules
R66, R70). -/
def State.fullAt (s : State) (b : BankNo) (a : Half) : Full := s.halfAt b a ++ s.halfAt b (a + 2)

/-- Replaces the byte at an address of a bank. -/
def State.setByte (s : State) (b : BankNo) (a : Half) (v : Byte) : State :=
  { s with mem := Memory.write s.mem (physical b a) v }

/-! ## Fitted memory and other agents (20_memory.md rules R62, R68, R75, R76) -/

/-- Whether a list of regions has an address. -/
def covers (rs : List Config.Region) (p : Nat) : Bool := rs.any fun r => decide (r.first ≤ p) && decide (p < r.first + r.count)

/-- An address in MEM_PRESENT (rule R62). -/
def isPresent (i : Config.Installation) (p : Nat) : Bool := covers i.present p

/-- An address that a write changes: in MEM_PRESENT and not in MEM_READONLY (rule R62). -/
def isWritable (i : Config.Installation) (p : Nat) : Bool := covers i.present p && !covers i.readOnly p

/-- The writes of other agents, in their order. One to an address that is absent or read-only changes nothing
(log 50). -/
def agentWrites (i : Config.Installation) (m : List Host.Cell) (ws : List AgentWrite) : List Host.Cell :=
  ws.foldl (fun m w => if isWritable i w.address.toNat then Memory.write m w.address.toNat w.value else m) m

/-- One transfer between the Processor and memory begins: what the other agents write before it has been written (rule
R76(c), log 35). -/
def State.transfer (s : State) : State :=
  match s.env.transfers with
  | [] => s
  | ws :: rest => { s with mem := agentWrites s.install s.mem ws, env := { s.env with transfers := rest } }

/-- Stores a byte where memory can be written; a store to read-only memory is ignored (rule R62). -/
def State.storeByte (s : State) (b : BankNo) (a : Half) (v : Byte) : State :=
  if isWritable s.install (physical b a) then s.setByte b a v else s

/-- Stores a halfword, big-endian (rule R67). -/
def State.storeHalf (s : State) (b : BankNo) (a v : Half) : State :=
  (s.storeByte b a (v.extractLsb' 8 8)).storeByte b (a + 1) (v.extractLsb' 0 8)

/-- Memory is fitted at an address of a bank. -/
def State.hasByte (s : State) (b : BankNo) (a : Half) : Bool := isPresent s.install (physical b a)

/-- Memory is fitted at both bytes of a halfword. -/
def State.hasHalf (s : State) (b : BankNo) (a : Half) : Bool := s.hasByte b a && s.hasByte b (a + 1)

/-- Goes on where the spec says "require … else UNSPECIFIED", and refuses by name where it is not so. -/
def require (ok : Bool) (why : Refusal) (k : Outcome) : Outcome := if ok then k else .refused why

/-- Goes on at an even operand address (20_memory.md rule R69, log 8). -/
def requireEven (a : Half) (k : Outcome) : Outcome := if a.getLsbD 0 then .fault .oddOperandAddress else k

/-! ## Transfers between the Processor and memory (20_memory.md rules R66 to R68)

Each takes what is done next with the state after it. An access to absent memory is UNSPECIFIED (rule R62, log 50). -/

/-- `MemRead(b, a, 1)`: one transfer (rules R66, R68). -/
def State.readByte (s : State) (b : BankNo) (a : Half) (k : Byte → State → Outcome) : Outcome :=
  require (s.hasByte b a) .absentMemory (k (s.transfer.byteAt b a) s.transfer)

/-- `MemRead(b, a, 2)`: one transfer (rules R66, R68). -/
def State.readHalf (s : State) (b : BankNo) (a : Half) (k : Half → State → Outcome) : Outcome :=
  require (s.hasHalf b a) .absentMemory (k (s.transfer.halfAt b a) s.transfer)

/-- `MemRead(b, a, 4)`: two transfers, the lower address first (rules R66, R68). -/
def State.readFull (s : State) (b : BankNo) (a : Half) (k : Full → State → Outcome) : Outcome :=
  s.readHalf b a fun hi t => t.readHalf b (a + 2) fun lo u => k (hi ++ lo) u

/-- `MemWrite(b, a, 1, v)`: one transfer (rules R67, R68). -/
def State.writeByte (s : State) (b : BankNo) (a : Half) (v : Byte) (k : State → Outcome) : Outcome :=
  require (s.hasByte b a) .absentMemory (k (s.transfer.storeByte b a v))

/-- `MemWrite(b, a, 2, v)`: one transfer (rules R67, R68). -/
def State.writeHalf (s : State) (b : BankNo) (a v : Half) (k : State → Outcome) : Outcome :=
  require (s.hasHalf b a) .absentMemory (k (s.transfer.storeHalf b a v))

/-- `MemWrite(b, a, 4, v)`: two transfers, the lower address first (rules R67, R68). -/
def State.writeFull (s : State) (b : BankNo) (a : Half) (v : Full) (k : State → Outcome) : Outcome :=
  s.writeHalf b a (v.extractLsb' 16 16) fun t => t.writeHalf b (a + 2) (v.extractLsb' 0 16) k

/-- The address of floating-point register `r` in bank 0 (10_state.md rule R34, log 39). -/
def floatAddress (r : RegNo) : Half := r.setWidth 16 + r.setWidth 16

/-- What stands in `f[r]`, r even. -/
def State.floatReg (s : State) (r : RegNo) : Full := s.fullAt 0 (floatAddress r)

/-- Reads `f[r]`, a fullword of bank 0. -/
def State.readFloat (s : State) (r : RegNo) (k : Full → State → Outcome) : Outcome := s.readFull 0 (floatAddress r) k

/-- `f[r] <- v`. -/
def State.writeFloat (s : State) (r : RegNo) (v : Full) (k : State → Outcome) : Outcome :=
  s.writeFull 0 (floatAddress r) v k

/-! ## Taking an interrupt and returning from one (60_exceptions.md rules R400, R404) -/

/-- The interrupts with one Old and one New PSW location each (rule R400). -/
inductive Interrupt where
  /-- External (rule R413). -/
  | external
  /-- Machine Malfunction (rule R410). -/
  | machineMalfunction
  /-- Fixed Point Divide Fault (rule R408). -/
  | divideFault
  /-- Floating-Point Arithmetic Fault (rule R409). -/
  | floatFault
  /-- Channel Termination (rule R416). -/
  | channelTermination
  /-- Illegal Instruction (rule R406). -/
  | illegalInstruction
  /-- Protect Mode violation (rule R407). -/
  | protectMode
  /-- Channel Termination Queue Overflow (rule R417). -/
  | queueOverflow
deriving DecidableEq, Repr

/-- The Old PSW location (rule R400); the last two rows of the first group share theirs. -/
def Interrupt.oldPsw : Interrupt → Half
  | .external => 0x0040
  | .machineMalfunction => 0x0038
  | .divideFault => 0x0048
  | .floatFault => 0x0028
  | .channelTermination => 0x0082
  | .illegalInstruction => 0x0030
  | .protectMode => 0x0030
  | .queueOverflow => 0x008c

/-- The New PSW location (rule R400). -/
def Interrupt.newPsw : Interrupt → Half
  | .external => 0x0044
  | .machineMalfunction => 0x003c
  | .divideFault => 0x004c
  | .floatFault => 0x002c
  | .channelTermination => 0x0086
  | .illegalInstruction => 0x0034
  | .protectMode => 0x0034
  | .queueOverflow => 0x0090

/-- `PSW<0:31> <- MemRead(b, a, 4)`: the second half of every PSW exchange, and the return from one, which is LPSW
(rules R404, R420). -/
def State.loadPsw (s : State) (b : BankNo) (a : Half) (k : State → Outcome) : Outcome :=
  s.readFull b a fun w t => k (t.setPsw (Psw.ofFull w))

/-- The PSW exchange: the status as it is and `a` go to the Old PSW location, every field of the PSW comes from the New
PSW location, both in bank 0 (rule R404). -/
def State.exchange (s : State) (i : Interrupt) (a : Half) (k : State → Outcome) : Outcome :=
  s.writeFull 0 i.oldPsw (s.psw.status ++ a) fun t => t.loadPsw 0 i.newPsw k

/-- `raise I(old LOC = a)`, the PSW exchange that ends a step (rule R404). -/
def State.raise (s : State) (i : Interrupt) (a : Half) : Outcome := s.exchange i a .next

/-- The six-byte block of a Service Pointer (20_memory.md rule R73): Old PSW to SP, status from SP+4, location counter
SP+6, all in bank 0 (60_exceptions.md rule R414, 47_system_control.md rule R312, log 23). `a` is the location counter
stored. A pointer whose bit 15 is set names a Channel Command Word, which the spec does not describe (rule R415). -/
def State.serviceDevice (s : State) (d : Byte) (a : Half) : Outcome :=
  s.readHalf 0 (0x00d0 + (d.setWidth 16 + d.setWidth 16)) fun sp t =>
    require (!sp.getLsbD 0) .channelCommandWord
      (t.writeFull 0 sp (s.psw.status ++ a) fun u =>
        u.readHalf 0 (sp + 4) fun status v => .next ((v.setPsw (v.psw.withStatus status)).jump (sp + 6)))

/-- The Channel Termination test of a PSW that LPSW or EPSR has just loaded (47_system_control.md rule R316). -/
def State.testQueue (s : State) : Outcome :=
  if s.psw.control.CT && s.env.queueEntry then s.raise .channelTermination s.psw.LOC else .next s

/-! ## Checks before an instruction acts (30_encoding.md rule R106) -/

/-- The privilege check, before every effect of a privileged instruction (60_exceptions.md rules R407, R426): in Protect
Mode the instruction takes the Protect Mode violation with its own address. -/
def State.privileged (s : State) (k : Outcome) : Outcome :=
  if s.psw.control.PM then s.raise .protectMode s.psw.LOC else k

/-- A register number that names a pair or quadruple must be even (30_encoding.md rule R98). -/
def isEven (r : RegNo) : Bool := !r.getLsbD 0

/-- R1 must be even (rule R98). -/
def requireR1Even (r1 : RegNo) (k : Outcome) : Outcome := require (isEven r1) (.reservedRegister .R1) k

/-- R1 and R2 must be even (rule R98). -/
def requireEvenPair (r1 r2 : RegNo) (k : Outcome) : Outcome :=
  requireR1Even r1 (require (isEven r2) (.reservedRegister .R2) k)

/-- R1 must be even and name four registers (rule R98). -/
def requireQuad (r1 : RegNo) (k : Outcome) : Outcome :=
  require (isEven r1 && r1.ule 12) (.reservedRegister .R1) k

end Sys2Proof.Machine
end

