-- ==== Sys2Proof/Machine/Operands.lean ====
section
/-! DEFINITION. The operand forms of the instruction formats (30_encoding.md rules R92 to R96). -/

namespace Sys2Proof.Machine

/-- `idx`: zero if the X2 field is 0, else `x[x2]` (rule R95). -/
def State.index (s : State) (x2 : RegNo) : Half := if x2 = 0 then 0 else s.reg x2

/-- `EA = trunc_16(a2 + idx)` (20_memory.md rule R64, rule R94). -/
def State.ea (s : State) (x2 : RegNo) (a2 : Half) : Half := a2 + s.index x2

/-- `OP2i = trunc_16(i2 + idx)` (rule R96). -/
def State.immediate (s : State) (x2 : RegNo) (i2 : Half) : Half := i2 + s.index x2

/-- The N field as data, `zext_16(n)` (rule R93). -/
def shortData (n : RegNo) : Half := n.setWidth 16

/-- The right-most byte of a halfword, bits 8:15. -/
def lowByte (v : Half) : Byte := v.extractLsb' 0 8

/-- The left-most byte of a halfword, bits 0:7. -/
def highByte (v : Half) : Byte := v.extractLsb' 8 8

/-- The halfword operand at an even address of bank `b`. -/
def State.withHalf (s : State) (b : BankNo) (a : Half) (k : Half → State → Outcome) : Outcome :=
  requireEven a (s.readHalf b a k)

/-- The fullword operand at an even address of bank `b`. -/
def State.withFull (s : State) (b : BankNo) (a : Half) (k : Full → State → Outcome) : Outcome :=
  requireEven a (s.readFull b a k)

/-- The halfword second operand of an RX instruction, through the operand bank (20_memory.md rule R61). -/
def State.halfOperand (s : State) (x2 : RegNo) (a2 : Half) (k : Half → State → Outcome) : Outcome :=
  s.withHalf s.psw.OB (s.ea x2 a2) k

/-- The fullword second operand of an RX instruction, through the operand bank. -/
def State.fullOperand (s : State) (x2 : RegNo) (a2 : Half) (k : Full → State → Outcome) : Outcome :=
  s.withFull s.psw.OB (s.ea x2 a2) k

/-- The byte second operand of an RX instruction, at any address of the operand bank. -/
def State.byteOperand (s : State) (x2 : RegNo) (a2 : Half) (k : Byte → State → Outcome) : Outcome :=
  s.readByte s.psw.OB (s.ea x2 a2) k

/-- The halfwords of memory from `a` on, one transfer for each register `r`, `r + 1`, …, 15 (40_load_store.md rule R132,
20_memory.md rule R68). `n` counts the registers. -/
def State.loadMultiple (b : BankNo) : (n : Nat) → (r : RegNo) → (a : Half) → (k : State → Outcome) → State → Outcome
  | 0, _, _, k, s => k s
  | n + 1, r, a, k, s => s.readHalf b a fun v t => State.loadMultiple b n (r + 1) (a + 2) k (t.setReg r v)

/-- Registers `r`, `r + 1`, …, 15 into the halfwords from `a` on, one transfer each (rule R133). -/
def State.storeMultiple (b : BankNo) : (n : Nat) → (r : RegNo) → (a : Half) → (k : State → Outcome) → State → Outcome
  | 0, _, _, k, s => k s
  | n + 1, r, a, k, s => s.writeHalf b a (s.reg r) (State.storeMultiple b n (r + 1) (a + 2) k)

/-- How many registers R1 to 15 are. -/
def multipleCount (r1 : RegNo) : Nat := 16 - r1.toNat

/-- The answer of `Dev.acknowledge`: the device that answers and its status byte, or none (48_input_output.md rules R330,
R332). With no answer left, none. -/
def State.acknowledgeAnswer (s : State) : Option (Byte × Byte) := s.env.acks.headD none

/-- After `Dev.acknowledge()` (rule R332). -/
def State.afterAcknowledge (s : State) : State :=
  { s with env := { s.env with acks := s.env.acks.tail, calls := .acknowledge :: s.env.calls } }

end Sys2Proof.Machine
end

