-- ==== Sys2Proof/Machine/Flags.lean ====
section
/-! DEFINITION. The computations of 00_scope.md rule R8 and every condition-code chart of the fixed-point instructions. -/

namespace Sys2Proof.Machine

/-- G of `GL(v)`: v is greater than zero (00_scope.md rule R8). -/
def isPositive {n : Nat} (v : BitVec n) : Bool := decide (v ≠ 0) && !v.msb

/-- L of `GL(v)`: v is less than zero. -/
def isNegative {n : Nat} (v : BitVec n) : Bool := v.msb

/-- The result of `add_N` or `sub_N`: the value, the carry or borrow, the overflow. -/
structure SumResult (n : Nat) where
  /-- r. -/
  value : BitVec n
  /-- The carry of an addition, the borrow of a subtraction. -/
  carry : Bool
  /-- The signed result is out of range. -/
  overflow : Bool
deriving DecidableEq, Repr

/-- Whether an exact signed result is outside N bits. -/
def outsideSigned (n : Nat) (v : Int) : Bool := decide (v < -(2 ^ (n - 1))) || decide (2 ^ (n - 1) ≤ v)

/-- `add_N(a, b, cin)` (00_scope.md rule R8). -/
def addN {n : Nat} (a b : BitVec n) (cin : Bool) : SumResult n :=
  { value := BitVec.ofNat n (a.toNat + b.toNat + cin.toNat)
    carry := decide (2 ^ n ≤ a.toNat + b.toNat + cin.toNat)
    overflow := outsideSigned n (a.toInt + b.toInt + (cin.toNat : Int)) }

/-- `sub_N(a, b, bin)` (00_scope.md rule R8). -/
def subN {n : Nat} (a b : BitVec n) (bin : Bool) : SumResult n :=
  { value := BitVec.ofInt n ((a.toNat : Int) - b.toNat - bin.toNat)
    carry := decide (a.toNat < b.toNat + bin.toNat)
    overflow := outsideSigned n (a.toInt - b.toInt - (bin.toNat : Int)) }

/-- `add_cc` and `sub_cc` (41_arithmetic.md rules R150, R151). -/
def SumResult.cc {n : Nat} (r : SumResult n) : CC :=
  { C := r.carry, V := r.overflow, G := isPositive r.value, L := isNegative r.value }

/-- `load_cc(v)` and `logical_cc(v)`: C and V are UNDEF, G and L are the sign (40_load_store.md rule R120,
42_logical_compare.md rule R190). -/
def State.setSignCC {n : Nat} (s : State) (v : BitVec n) : State :=
  (s.setCC { C := s.undef 0, V := s.undef 1, G := isPositive v, L := isNegative v }).drew 2

/-- `cmpl_cc_N(a, b)` (42_logical_compare.md rule R201): C is the borrow of `a - b`, V is UNDEF, G and L are the sign of
the difference (log 25). -/
def State.setLogicalCC {n : Nat} (s : State) (a b : BitVec n) : State :=
  let d := subN a b false
  (s.setCC { C := d.carry, V := s.undef 0, G := isPositive d.value, L := isNegative d.value }).drew 1

/-- `cmpa_cc_N(a, b)` (rule R202): the signed order, C is "less" (log 25), V is UNDEF. -/
def State.setAlgebraicCC {n : Nat} (s : State) (a b : BitVec n) : State :=
  (s.setCC { C := decide (a.toInt < b.toInt), V := s.undef 0
             G := decide (b.toInt < a.toInt), L := decide (a.toInt < b.toInt) }).drew 1

/-- The chart of CLB (43_byte_handling.md rule R225): unequal operands set exactly one of G and L, which one is UNDEF
(log 26). -/
def State.setByteCC (s : State) (a b : Byte) : State :=
  (s.setCC { C := decide (a.toNat < b.toNat), V := s.undef 0
             G := decide (a ≠ b) && s.undef 1, L := decide (a ≠ b) && !s.undef 1 }).drew 2

/-- The result of a shift: the value and the last bit shifted out. -/
structure ShiftResult (n : Nat) where
  /-- The shifted operand. -/
  value : BitVec n
  /-- The last bit that was shifted out. -/
  last : Bool
deriving DecidableEq, Repr

/-- `shl_log_N(v, n)` (44_shift_rotate.md rule R231). -/
def shiftLeftLogical {w : Nat} (v : BitVec w) (n : Nat) : ShiftResult w :=
  { value := v <<< n, last := v.getLsbD (w - n) }

/-- `shr_log_N(v, n)`. -/
def shiftRightLogical {w : Nat} (v : BitVec w) (n : Nat) : ShiftResult w :=
  { value := v >>> n, last := v.getLsbD (n - 1) }

/-- `shr_ar_N(v, n)`: copies of the sign enter at the left. -/
def shiftRightArithmetic {w : Nat} (v : BitVec w) (n : Nat) : ShiftResult w :=
  { value := v.sshiftRight n, last := v.getLsbD (n - 1) }

/-- `shl_ar_N(v, n)`: the sign bit stays, bits leave from source bit position 1. -/
def shiftLeftArithmetic {w : Nat} (v : BitVec (w + 1)) (n : Nat) : ShiftResult (w + 1) :=
  { value := BitVec.cons v.msb (v.setWidth w <<< n), last := v.getLsbD (w - n) }

/-- `shift_cc(r, c, n)`: V is reset; a shift of zero positions leaves C UNDEF (rule R231, log 27). -/
def State.setShiftCC {w : Nat} (s : State) (r : ShiftResult w) (n : Nat) : State :=
  if n = 0 then
    (s.setCC { C := s.undef 0, V := false, G := isPositive r.value, L := isNegative r.value }).drew 1
  else s.setCC { C := r.last, V := false, G := isPositive r.value, L := isNegative r.value }

/-- The rotate chart: C and V are reset (rules R242, R243). -/
def State.setRotateCC (s : State) (r : Full) : State :=
  s.setCC { C := false, V := false, G := isPositive r, L := isNegative r }

end Sys2Proof.Machine
end

