-- ==== Sys2Proof/Machine/Arithmetic.lean ====
section
/-! DEFINITION. The fixed-point arithmetic instructions (41_arithmetic.md). -/

namespace Sys2Proof.Machine

/-- A halfword sum or difference into R1 with its condition code (rules R150, R151). -/
def sumHalf (r1 : RegNo) (r : SumResult 16) (len : Half) (s : State) : Outcome :=
  .next (((s.setReg r1 r.value).setCC r.cc).advance len)

/-- A fullword sum or difference into R1, R1+1 with its condition code (rules R150, R151). -/
def sumFull (r1 : RegNo) (r : SumResult 32) (len : Half) (s : State) : Outcome :=
  .next (((s.setPair r1 r.value).setCC r.cc).advance len)

/-- The first operand of MHR and MH, as MH_MULTIPLICAND says (rule R170, log 14). -/
def State.multiplicand (s : State) (r1 : RegNo) : Half :=
  match s.install.multiplicand with
  | .first => s.reg r1
  | .second => s.reg (r1 + 1)

/-- A 32-bit product into R1, R1+1; the condition code is unchanged (rule R169). -/
def productFull (r1 : RegNo) (p : Full) (len : Half) (s : State) : Outcome :=
  .next ((s.setPair r1 p).advance len)

/-- A 64-bit product into R1 to R1+3; the condition code is unchanged (rule R169). -/
def productDouble (r1 : RegNo) (p : Dbl) (len : Half) (s : State) : Outcome :=
  .next ((s.setQuad r1 p).advance len)

/-- The signed double-width product (rule R169). -/
def signedProduct {n : Nat} (a b : BitVec n) (m : Nat) : BitVec m := BitVec.ofInt m (a.toInt * b.toInt)

/-- The unsigned double-width product (rule R169). -/
def unsignedProduct {n : Nat} (a b : BitVec n) (m : Nat) : BitVec m := BitVec.ofNat m (a.toNat * b.toNat)

/-- Whether a divide of width `n` faults: a zero divisor, or a quotient magnitude above 2^(n-1) - 1 (rule R176,
log 28). -/
def divideFaults (n : Nat) (dividend divisor : Int) : Bool :=
  decide (divisor = 0) || decide (2 ^ (n - 1) ≤ (dividend.tdiv divisor).natAbs)

/-- A divide whose fault condition holds (rule R176): with DF set the interrupt is taken before any register is
written; with DF reset the result registers, which `undefined` writes, hold UNDEF bits (log 28). -/
def divideFaulted (len : Half) (undefined : State) (s : State) : Outcome :=
  if s.psw.control.DF then s.raise .divideFault (s.psw.LOC + len) else .next (undefined.advance len)

/-- The halfword divide (rule R177): remainder to R1, quotient to R1+1, truncated toward zero. -/
def divideHalf (r1 : RegNo) (divisor : Half) (len : Half) (s : State) : Outcome :=
  let dividend := (s.pair r1).toInt
  let d := divisor.toInt
  if divideFaults 16 dividend d then divideFaulted len ((s.setPair r1 (s.undefFull 0)).drew 2) s
  else .next (((s.setReg r1 (BitVec.ofInt 16 (dividend.tmod d))).setReg (r1 + 1)
    (BitVec.ofInt 16 (dividend.tdiv d))).advance len)

/-- The fullword divide (rule R179): remainder to R1, R1+1, quotient to R1+2, R1+3. -/
def divideFull (r1 : RegNo) (divisor : Full) (len : Half) (s : State) : Outcome :=
  let dividend := (s.quad r1).toInt
  let d := divisor.toInt
  if divideFaults 32 dividend d then
    divideFaulted len ((s.setQuad r1 (s.undefFull 0 ++ s.undefFull 2)).drew 4) s
  else .next (((s.setPair r1 (BitVec.ofInt 32 (dividend.tmod d))).setPair (r1 + 2)
    (BitVec.ofInt 32 (dividend.tdiv d))).advance len)

/-- AIS: Add Immediate Short (rule R152). -/
def execAis (r1 n : RegNo) (s : State) : Outcome := sumHalf r1 (addN (s.reg r1) (shortData n) false) 2 s

/-- AHR: Add Halfword Register (rule R153). -/
def execAhr (r1 r2 : RegNo) (s : State) : Outcome := sumHalf r1 (addN (s.reg r1) (s.reg r2) false) 2 s

/-- AH: Add Halfword (rule R154). -/
def execAh (r1 x2 : RegNo) (a2 : Half) (s : State) : Outcome :=
  s.halfOperand x2 a2 fun v => sumHalf r1 (addN (s.reg r1) v false) 4

/-- AHI: Add Halfword Immediate (rule R155). -/
def execAhi (r1 x2 : RegNo) (i2 : Half) (s : State) : Outcome :=
  sumHalf r1 (addN (s.reg r1) (s.immediate x2 i2) false) 4 s

/-- AHM: Add Halfword to Memory, a read and then a write (rule R156, 20_memory.md rule R78). -/
def execAhm (r1 x2 : RegNo) (a2 : Half) (s : State) : Outcome :=
  s.halfOperand x2 a2 fun v t =>
    let r := addN (s.reg r1) v false
    t.writeHalf s.psw.OB (s.ea x2 a2) r.value fun u => .next ((u.setCC r.cc).advance 4)

/-- ACHR: Add With Carry Halfword Register (rule R157). -/
def execAchr (r1 r2 : RegNo) (s : State) : Outcome := sumHalf r1 (addN (s.reg r1) (s.reg r2) s.psw.cc.C) 2 s

/-- ACH: Add With Carry Halfword (rule R158). -/
def execAch (r1 x2 : RegNo) (a2 : Half) (s : State) : Outcome :=
  s.halfOperand x2 a2 fun v => sumHalf r1 (addN (s.reg r1) v s.psw.cc.C) 4

/-- ADPR: Add Fullword Register (rule R159). -/
def execAdpr (r1 r2 : RegNo) (s : State) : Outcome :=
  requireEvenPair r1 r2 (sumFull r1 (addN (s.pair r1) (s.pair r2) false) 2 s)

/-- ADP: Add Fullword (rule R160). -/
def execAdp (r1 x2 : RegNo) (a2 : Half) (s : State) : Outcome :=
  requireR1Even r1 (s.fullOperand x2 a2 fun v => sumFull r1 (addN (s.pair r1) v false) 4)

/-- SIS: Subtract Immediate Short (rule R161). -/
def execSis (r1 n : RegNo) (s : State) : Outcome := sumHalf r1 (subN (s.reg r1) (shortData n) false) 2 s

/-- SHR: Subtract Halfword Register (rule R162). -/
def execShr (r1 r2 : RegNo) (s : State) : Outcome := sumHalf r1 (subN (s.reg r1) (s.reg r2) false) 2 s

/-- SH: Subtract Halfword (rule R163). -/
def execSh (r1 x2 : RegNo) (a2 : Half) (s : State) : Outcome :=
  s.halfOperand x2 a2 fun v => sumHalf r1 (subN (s.reg r1) v false) 4

/-- SHI: Subtract Halfword Immediate (rule R164). -/
def execShi (r1 x2 : RegNo) (i2 : Half) (s : State) : Outcome :=
  sumHalf r1 (subN (s.reg r1) (s.immediate x2 i2) false) 4 s

/-- SCHR: Subtract With Carry Halfword Register (rule R165). -/
def execSchr (r1 r2 : RegNo) (s : State) : Outcome := sumHalf r1 (subN (s.reg r1) (s.reg r2) s.psw.cc.C) 2 s

/-- SCH: Subtract With Carry Halfword (rule R166). -/
def execSch (r1 x2 : RegNo) (a2 : Half) (s : State) : Outcome :=
  s.halfOperand x2 a2 fun v => sumHalf r1 (subN (s.reg r1) v s.psw.cc.C) 4

/-- SDPR: Subtract Fullword Register (rule R167). -/
def execSdpr (r1 r2 : RegNo) (s : State) : Outcome :=
  requireEvenPair r1 r2 (sumFull r1 (subN (s.pair r1) (s.pair r2) false) 2 s)

/-- SDP: Subtract Fullword (rule R168). -/
def execSdp (r1 x2 : RegNo) (a2 : Half) (s : State) : Outcome :=
  requireR1Even r1 (s.fullOperand x2 a2 fun v => sumFull r1 (subN (s.pair r1) v false) 4)

/-- MHR: Multiply Halfword Register; R2 names a halfword and may be odd (log 10) (rule R170). -/
def execMhr (r1 r2 : RegNo) (s : State) : Outcome :=
  requireR1Even r1 (productFull r1 (signedProduct (s.multiplicand r1) (s.reg r2) 32) 2 s)

/-- MH: Multiply Halfword (rule R171). -/
def execMh (r1 x2 : RegNo) (a2 : Half) (s : State) : Outcome :=
  requireR1Even r1 (s.halfOperand x2 a2 fun v =>
    productFull r1 (signedProduct (s.multiplicand r1) v 32) 4)

/-- MHUR: Multiply Halfword Unsigned Register (rule R172). -/
def execMhur (r1 r2 : RegNo) (s : State) : Outcome :=
  requireR1Even r1 (productFull r1 (unsignedProduct (s.reg (r1 + 1)) (s.reg r2) 32) 2 s)

/-- MHU: Multiply Halfword Unsigned (rule R173). -/
def execMhu (r1 x2 : RegNo) (a2 : Half) (s : State) : Outcome :=
  requireR1Even r1 (s.halfOperand x2 a2 fun v =>
    productFull r1 (unsignedProduct (s.reg (r1 + 1)) v 32) 4)

/-- MDPR: Multiply Fullword Register (rule R174). -/
def execMdpr (r1 r2 : RegNo) (s : State) : Outcome :=
  requireQuad r1 (require (isEven r2) (.reservedRegister .R2)
    (productDouble r1 (signedProduct (s.pair (r1 + 2)) (s.pair r2) 64) 2 s))

/-- MDP: Multiply Fullword (rule R175). -/
def execMdp (r1 x2 : RegNo) (a2 : Half) (s : State) : Outcome :=
  requireQuad r1 (s.fullOperand x2 a2 fun v =>
    productDouble r1 (signedProduct (s.pair (r1 + 2)) v 64) 4)

/-- DHR: Divide Halfword Register; R2 names a halfword and may be odd (log 10) (rule R177). -/
def execDhr (r1 r2 : RegNo) (s : State) : Outcome := requireR1Even r1 (divideHalf r1 (s.reg r2) 2 s)

/-- DH: Divide Halfword (rule R178). -/
def execDh (r1 x2 : RegNo) (a2 : Half) (s : State) : Outcome :=
  requireR1Even r1 (s.halfOperand x2 a2 fun v => divideHalf r1 v 4)

/-- DDPR: Divide Fullword Register (rule R179). -/
def execDdpr (r1 r2 : RegNo) (s : State) : Outcome :=
  requireQuad r1 (require (isEven r2) (.reservedRegister .R2) (divideFull r1 (s.pair r2) 2 s))

/-- DDP: Divide Fullword (rule R180). -/
def execDdp (r1 x2 : RegNo) (a2 : Half) (s : State) : Outcome :=
  requireQuad r1 (s.fullOperand x2 a2 fun v => divideFull r1 v 4)

end Sys2Proof.Machine
end

