-- ==== Sys2Proof/Machine/Augment.lean ====
section
/-! DEFINITION. The instruction augment set (49_list_trig_augment.md rules R381 to R388). -/

namespace Sys2Proof.Machine

/-- SESB and RESB: a change of PSW bits 0:7, with R1 and X2 zero (rules R381, R382). -/
def changeControl (r1 x2 : RegNo) (bits : Byte) (s : State) : Outcome :=
  s.privileged (require (decide (r1 = 0)) (.mustBeZero .R1) (require (decide (x2 = 0)) (.mustBeZero .X2)
    (.next ((s.setPsw { s.psw with control := Control.ofBits bits }).advance 4))))

/-- A halfword into R1 with a condition code of its own chart. -/
def augmentResult (r1 : RegNo) (v : Half) (c : CC) (len : Half) (s : State) : Outcome :=
  .next (((s.setReg r1 v).setCC c).advance len)

/-- The two's complement of v (rule R383): the chart is that of the subtraction 0 - v. -/
def loadComplement (r1 : RegNo) (v : Half) (len : Half) (s : State) : Outcome :=
  augmentResult r1 (subN 0 v false).value (subN 0 v false).cc len s

/-- Two's complement to sign and magnitude and back (rule R385). -/
def changedBase (v : Half) : Half := if v.msb then 0x8000 - v else v

/-- The chart of LCNHR (rule R385). -/
def changedBaseCC (v : Half) : CC :=
  if v = 0 then CC.ofBits 0
  else if v = 0x8000 then CC.ofBits 8
  else if v.msb then CC.ofBits 1
  else CC.ofBits 2

/-- The absolute value, X'8000' for X'8000' (rule R387). -/
def absoluteValue (v : Half) : Half := if v.msb then -v else v

/-- The chart of LAVR (rule R387). -/
def absoluteValueCC (v : Half) : CC :=
  if v = 0 then CC.ofBits 0
  else if v = 0x8000 then CC.ofBits 13
  else if v.msb then CC.ofBits 10
  else CC.ofBits 2

/-- SESB: Set Status Bits (rule R381). -/
def execSesb (r1 x2 : RegNo) (i2 : Half) (s : State) : Outcome :=
  changeControl r1 x2 (s.psw.control.bits ||| highByte i2) s

/-- RESB: Reset Status Bits (rule R382). -/
def execResb (r1 x2 : RegNo) (i2 : Half) (s : State) : Outcome :=
  changeControl r1 x2 (s.psw.control.bits &&& ~~~highByte i2) s

/-- LCHR: Load Complement Halfword Register (rule R383). -/
def execLchr (r1 r2 : RegNo) (s : State) : Outcome := loadComplement r1 (s.reg r2) 2 s

/-- LCH: Load Complement Halfword (rule R384). -/
def execLch (r1 x2 : RegNo) (a2 : Half) (s : State) : Outcome := s.halfOperand x2 a2 fun v => loadComplement r1 v 4

/-- LCNHR: Load and Change Number Base Halfword Register (rule R385). -/
def execLcnhr (r1 r2 : RegNo) (s : State) : Outcome :=
  augmentResult r1 (changedBase (s.reg r2)) (changedBaseCC (s.reg r2)) 2 s

/-- LCNH: Load and Change Number Base Halfword (rule R386). -/
def execLcnh (r1 x2 : RegNo) (a2 : Half) (s : State) : Outcome :=
  s.halfOperand x2 a2 fun v => augmentResult r1 (changedBase v) (changedBaseCC v) 4

/-- LAVR: Load Absolute Value Halfword Register (rule R387). -/
def execLavr (r1 r2 : RegNo) (s : State) : Outcome :=
  augmentResult r1 (absoluteValue (s.reg r2)) (absoluteValueCC (s.reg r2)) 2 s

/-- LAV: Load Absolute Value Halfword (rule R388). -/
def execLav (r1 x2 : RegNo) (a2 : Half) (s : State) : Outcome :=
  s.halfOperand x2 a2 fun v => augmentResult r1 (absoluteValue v) (absoluteValueCC v) 4

end Sys2Proof.Machine
end

