-- ==== Sys2Proof/Machine/Branch.lean ====
section
/-! DEFINITION. The branch instructions (45_branch.md). A taken branch replaces the location counter alone (rule R261). -/

namespace Sys2Proof.Machine

/-- `cond = (CC & m1) != 0` (rule R260). -/
def State.condition (s : State) (m1 : RegNo) : Bool := decide (s.psw.cc.bits &&& m1 ≠ 0)

/-- Goes to `target` when `taken`, else past the branch. -/
def branchTo (taken : Bool) (target : Half) (len : Half) (s : State) : Outcome :=
  .next (if taken then s.jump target else s.advance len)

/-- The N field times two, the displacement of a short branch (30_encoding.md rule R93). -/
def displacement (n : RegNo) : Half := n.setWidth 16 + n.setWidth 16

/-- The index is high: greater than the limit, as BX_COMPARE compares (rule R270, log 13). -/
def isHigh (compare : Config.IndexCompare) (index limit : Half) : Bool :=
  match compare with
  | .logical => limit.ult index
  | .signed => limit.slt index

/-- BXH and BXLE: R1 is incremented by R1+1 and compared with R1+2; the branch address is computed before, and R1 names
three registers (rules R98, R270). -/
def branchOnIndex (whenHigh : Bool) (r1 x2 : RegNo) (a2 : Half) (s : State) : Outcome :=
  let i := s.reg r1 + s.reg (r1 + 1)
  let t := s.setReg r1 i
  require (r1.ule 13) (.reservedRegister .R1)
    (branchTo (isHigh s.install.indexCompare i (t.reg (r1 + 2)) == whenHigh) (s.ea x2 a2) 4 t)

/-- BTCR: Branch on True Condition Register (rule R262). -/
def execBtcr (m1 r2 : RegNo) (s : State) : Outcome := branchTo (s.condition m1) (s.reg r2) 2 s

/-- BTC: Branch on True Condition (rule R263). -/
def execBtc (m1 x2 : RegNo) (a2 : Half) (s : State) : Outcome := branchTo (s.condition m1) (s.ea x2 a2) 4 s

/-- BFCR: Branch on False Condition Register (rule R264). -/
def execBfcr (m1 r2 : RegNo) (s : State) : Outcome := branchTo (!s.condition m1) (s.reg r2) 2 s

/-- BFC: Branch on False Condition (rule R265). -/
def execBfc (m1 x2 : RegNo) (a2 : Half) (s : State) : Outcome := branchTo (!s.condition m1) (s.ea x2 a2) 4 s

/-- BTBS: Branch on True Backward Short (rule R266). -/
def execBtbs (m1 n : RegNo) (s : State) : Outcome := branchTo (s.condition m1) (s.psw.LOC - displacement n) 2 s

/-- BTFS: Branch on True Forward Short (rule R267). -/
def execBtfs (m1 n : RegNo) (s : State) : Outcome := branchTo (s.condition m1) (s.psw.LOC + displacement n) 2 s

/-- BFBS: Branch on False Backward Short (rule R268). -/
def execBfbs (m1 n : RegNo) (s : State) : Outcome := branchTo (!s.condition m1) (s.psw.LOC - displacement n) 2 s

/-- BFFS: Branch on False Forward Short (rule R269). -/
def execBffs (m1 n : RegNo) (s : State) : Outcome := branchTo (!s.condition m1) (s.psw.LOC + displacement n) 2 s

/-- BXH: Branch on Index High (rule R270). -/
def execBxh (r1 x2 : RegNo) (a2 : Half) (s : State) : Outcome := branchOnIndex true r1 x2 a2 s

/-- BXLE: Branch on Index Low or Equal (rule R271). -/
def execBxle (r1 x2 : RegNo) (a2 : Half) (s : State) : Outcome := branchOnIndex false r1 x2 a2 s

/-- BALR: Branch and Link Register (rule R272). -/
def execBalr (r1 r2 : RegNo) (s : State) : Outcome := .next ((s.setReg r1 (s.psw.LOC + 2)).jump (s.reg r2))

/-- BAL: Branch and Link (rule R273). -/
def execBal (r1 x2 : RegNo) (a2 : Half) (s : State) : Outcome :=
  .next ((s.setReg r1 (s.psw.LOC + 4)).jump (s.ea x2 a2))

end Sys2Proof.Machine
end

