-- ==== Sys2Proof/Machine/Bytes.lean ====
section
/-! DEFINITION. The byte handling instructions (43_byte_handling.md). -/

namespace Sys2Proof.Machine

/-- LBR: Load Byte Register (rule R220). -/
def execLbr (r1 r2 : RegNo) (s : State) : Outcome :=
  .next ((s.setReg r1 ((lowByte (s.reg r2)).setWidth 16)).advance 2)

/-- LB: Load Byte (rule R221). -/
def execLb (r1 x2 : RegNo) (a2 : Half) (s : State) : Outcome :=
  s.byteOperand x2 a2 fun v t => .next ((t.setReg r1 (v.setWidth 16)).advance 4)

/-- STBR: Store Byte Register; the destination is R2 (rule R222). -/
def execStbr (r1 r2 : RegNo) (s : State) : Outcome :=
  .next ((s.setReg r2 (highByte (s.reg r2) ++ lowByte (s.reg r1))).advance 2)

/-- STB: Store Byte (rule R223). -/
def execStb (r1 x2 : RegNo) (a2 : Half) (s : State) : Outcome :=
  s.writeByte s.psw.OB (s.ea x2 a2) (lowByte (s.reg r1)) fun t => .next (t.advance 4)

/-- EXBR: Exchange Byte Register (rule R224). -/
def execExbr (r1 r2 : RegNo) (s : State) : Outcome :=
  .next ((s.setReg r1 (lowByte (s.reg r2) ++ highByte (s.reg r2))).advance 2)

/-- CLB: Compare Logical Byte (rule R225). -/
def execClb (r1 x2 : RegNo) (a2 : Half) (s : State) : Outcome :=
  s.byteOperand x2 a2 fun v t => .next ((t.setByteCC (lowByte (s.reg r1)) v).advance 4)

end Sys2Proof.Machine
end

