-- ==== Sys2Proof/Machine/FloatArith.lean ====
section
/-! DEFINITION. Floating-point numbers and their reference arithmetic (46_floating_point.md rules R280 to R286, R294), on
exact integers. The numerics are the spec's own reading of the source's narrative (log 15). -/

namespace Sys2Proof.Machine

/-- `unpack(w)` (rule R280): the sign, the true exponent and the 24-bit fraction. -/
structure FloatParts where
  /-- S, true for minus. -/
  neg : Bool
  /-- e = E - 64. -/
  exp : Int
  /-- F. -/
  frac : Nat
deriving DecidableEq, Repr

/-- `unpack(w)`. -/
def unpackFloat (w : Full) : FloatParts :=
  { neg := w.msb, exp := ((w.extractLsb' 24 7).toNat : Int) - 64, frac := (w.extractLsb' 0 24).toNat }

/-- `pack(s, e, f)`. -/
def packFloat (neg : Bool) (e : Int) (f : Nat) : Full :=
  BitVec.ofBool neg ++ BitVec.ofInt 7 (e + 64) ++ BitVec.ofNat 24 f

/-- MAXMAG(s). -/
def maxMagnitude (neg : Bool) : Full := BitVec.ofBool neg ++ (0x7fffffff : BitVec 31)

/-- `normalized(w)`: TRUE_ZERO, or a fraction whose first digit is not zero. -/
def isNormalized (w : Full) : Bool := decide (w = 0) || decide (w.extractLsb' 20 4 ≠ 0)

/-- `finish(s, e, f)` (rule R283). -/
def finishFloat (neg : Bool) (e : Int) (f : Nat) : FloatResult :=
  if 63 < e then .overflow neg else if e < -64 then .underflow else .num neg e f

/-- Left shifts by one hexadecimal digit until the first digit of the fraction is not zero, at most `n` of them: the
exponent and the fraction. -/
def normalizeFloat : (n : Nat) → Int → Nat → Int × Nat
  | 0, e, f => (e, f)
  | n + 1, e, f => if f < 2 ^ 20 then normalizeFloat n (e - 1) (f * 16) else (e, f)

/-- `fp_load(w)` (rule R287). -/
def floatLoad (w : Full) : FloatResult :=
  let p := unpackFloat w
  if p.frac = 0 then .zero
  else
    let r := normalizeFloat 6 p.exp p.frac
    if r.1 < -64 then .underflow else .num p.neg r.1 r.2

/-- The sum of two numbers the first of which has the greater exponent or the same (rule R284). -/
def floatAddAligned (a b : FloatParts) : FloatResult :=
  let fb := b.frac / 16 ^ (a.exp - b.exp).toNat
  if a.neg = b.neg then
    let f := a.frac + fb
    if f = 0 then .zero
    else if 2 ^ 24 ≤ f then finishFloat a.neg (a.exp + 1) (f / 16)
    else
      let r := normalizeFloat 6 a.exp f
      finishFloat a.neg r.1 r.2
  else
    let f := if fb ≤ a.frac then a.frac - fb else fb - a.frac
    if f = 0 then .zero
    else
      let r := normalizeFloat 6 a.exp f
      finishFloat (if fb ≤ a.frac then a.neg else b.neg) r.1 r.2

/-- `fp_add(a, b)` (rule R284). -/
def floatAdd (a b : Full) : FloatResult :=
  let p := unpackFloat a
  let q := unpackFloat b
  if p.exp < q.exp then floatAddAligned q p else floatAddAligned p q

/-- `fp_sub(a, b)`: the sum with the sign bit of b inverted (rule R284). -/
def floatSub (a b : Full) : FloatResult := floatAdd a (b ^^^ 0x80000000)

/-- A fraction that rounding has carried to 2^24 becomes X'100000' with the next exponent (rules R285, R286). -/
def finishRounded (neg : Bool) (e : Int) (f : Nat) : FloatResult :=
  if f = 2 ^ 24 then finishFloat neg (e + 1) (2 ^ 20) else finishFloat neg e f

/-- `floor(n / d + 1/2)`: half goes up, the reference (rules R285, R286). -/
def roundNearest (n d : Nat) : Nat := (2 * n + d) / (2 * d)

/-- n / d where that is a whole number, else the whole number below or above it. -/
def roundTo (up : Bool) (n d : Nat) : Nat := if n % d = 0 then n / d else if up then n / d + 1 else n / d

/-- Multiplication (rule R285) with the rounding of a 24-bit fraction given: a zero operand is tested first (log 29), the
exponent sum before multiplying. -/
def floatMulBy (round : Nat → Nat → Nat) (a b : Full) : FloatResult :=
  let p := unpackFloat a
  let q := unpackFloat b
  let neg := p.neg != q.neg
  let e := p.exp + q.exp
  if p.frac = 0 ∨ q.frac = 0 then .zero
  else if 63 < e then .overflow neg
  else if e < -64 then .underflow
  else
    let m := p.frac * q.frac
    if m < 2 ^ 44 then finishRounded neg (e - 1) (round (m * 16) (2 ^ 24))
    else finishRounded neg e (round m (2 ^ 24))

/-- Division (rule R286) with the rounding of a 24-bit fraction given. -/
def floatDivBy (round : Nat → Nat → Nat) (a b : Full) : FloatResult :=
  let p := unpackFloat a
  let q := unpackFloat b
  let neg := p.neg != q.neg
  let e := p.exp - q.exp
  if q.frac = 0 then .divideByZero
  else if p.frac = 0 then .zero
  else if 63 < e then .overflow neg
  else if e < -64 then .underflow
  else if q.frac ≤ p.frac then finishRounded neg (e + 1) (round (p.frac * 2 ^ 24) (16 * q.frac))
  else finishRounded neg e (round (p.frac * 2 ^ 24) q.frac)

/-- `fp_mul(a, b)` (rule R285). -/
def floatMul (a b : Full) : FloatResult := floatMulBy roundNearest a b

/-- `fp_div(a, b)` (rule R286). -/
def floatDiv (a b : Full) : FloatResult := floatDivBy roundNearest a b

/-- `value(w)` in units of 16^-64 / 2^24, exact (rule R280). -/
def floatValue (w : Full) : Int :=
  let magnitude : Int := ((w.extractLsb' 0 24).toNat * 16 ^ (w.extractLsb' 24 7).toNat : Nat)
  if w.msb then -magnitude else magnitude

/-! ## Admissible functions (rules R284 to R286, log 15) -/

/-- No digit is shifted out where the fraction of `b` is aligned with that of `a`, whose exponent is the greater or the
same, nor where a carry moves the sum right. -/
def keepsDigits (a b : FloatParts) : Bool :=
  let d := (a.exp - b.exp).toNat
  let f := a.frac + b.frac / 16 ^ d
  decide (b.frac % 16 ^ d = 0) && (decide (a.neg ≠ b.neg) || decide (f < 2 ^ 24) || decide (f % 16 = 0))

/-- A sum that is exactly representable with no digit shifted out (rule R284). -/
def sumIsExact (a b : Full) : Bool :=
  let p := unpackFloat a
  let q := unpackFloat b
  if p.exp < q.exp then keepsDigits q p else keepsDigits p q

/-- An outcome of the form that rule R283 gives: not a zero divisor, a number normalized and in range, and an overflow
with the sign of the sum. -/
def isSumOutcome (a b : Full) (r : FloatResult) : Bool :=
  match r with
  | .zero => true
  | .num _ e f => decide (2 ^ 20 ≤ f) && decide (f < 2 ^ 24) && decide (-64 ≤ e) && decide (e ≤ 63)
  | .overflow neg => neg == decide (floatValue a + floatValue b < 0)
  | .underflow => true
  | .divideByZero => false

/-- A candidate for a sum, held to what the source fixes whatever the function: an exact sum is the reference's, any
other has the form of an outcome; else the reference itself (rule R284). -/
def admittedSum (r : FloatResult) (a b : Full) : FloatResult :=
  if !sumIsExact a b && isSumOutcome a b r then r else floatAdd a b

/-- `fp_add` of this installation. -/
def State.fpAdd (s : State) (a b : Full) : FloatResult :=
  match s.install.floatUnit with
  | .reference => floatAdd a b
  | .installed => admittedSum (Config.fpAdd a b) a b

/-- `fp_sub` of this installation. -/
def State.fpSub (s : State) (a b : Full) : FloatResult :=
  match s.install.floatUnit with
  | .reference => floatSub a b
  | .installed => admittedSum (Config.fpSub a b) a (b ^^^ 0x80000000)

/-- `fp_mul` of this installation: the product is rounded to 24 bits, which way is the function's. -/
def State.fpMul (s : State) (a b : Full) : FloatResult :=
  match s.install.floatUnit with
  | .reference => floatMul a b
  | .installed => floatMulBy (roundTo (Config.fpMulRoundsUp a b)) a b

/-- `fp_div` of this installation: the quotient is rounded, which way is the function's. -/
def State.fpDiv (s : State) (a b : Full) : FloatResult :=
  match s.install.floatUnit with
  | .reference => floatDiv a b
  | .installed => floatDivBy (roundTo (Config.fpDivRoundsUp a b)) a b

end Sys2Proof.Machine
end

