-- ==== Sys2Proof/Machine/Float.lean ====
section
/-! DEFINITION. The floating-point instructions and the thirteen no-op codes (46_floating_point.md). -/

namespace Sys2Proof.Machine

/-- The three condition-code charts of floating-point arithmetic. -/
inductive FloatChart where
  /-- Load, add and subtract (rules R287, R290). -/
  | sum
  /-- Multiply (rule R296). -/
  | product
  /-- Divide (rule R298). -/
  | quotient
deriving DecidableEq, Repr

/-- What the outcome puts into R1; nothing for a zero divisor (rule R283). -/
def FloatResult.register : FloatResult → Option Full
  | .zero => some 0
  | .num neg e f => some (packFloat neg e f)
  | .overflow neg => some (maxMagnitude neg)
  | .underflow => some 0
  | .divideByZero => none

/-- The outcomes that set V and raise the fault (rule R283). -/
def FloatResult.isFault : FloatResult → Bool
  | .zero => false
  | .num _ _ _ => false
  | .overflow _ => true
  | .underflow => true
  | .divideByZero => true

/-- C: UNDEF, but for the divides, where it says that the divisor was zero (rules R287, R296, R298). -/
def State.floatC (s : State) (chart : FloatChart) (r : FloatResult) : Bool :=
  match chart with
  | .sum => s.undef 0
  | .product => s.undef 0
  | .quotient => decide (r = .divideByZero)

/-- G. On overflow: the sign for a sum, UNDEF for a product; for a quotient G and L are UNDEF but not both 0
(rules R283, R290, R296, R298). -/
def State.floatG (s : State) (chart : FloatChart) (r : FloatResult) : Bool :=
  match r, chart with
  | .num neg _ _, _ => !neg
  | .overflow neg, .sum => !neg
  | .overflow _, .product => s.undef 1
  | .overflow _, .quotient => s.undef 1 || !s.undef 2
  | _, _ => false

/-- L, as for G. -/
def State.floatL (s : State) (chart : FloatChart) (r : FloatResult) : Bool :=
  match r, chart with
  | .num neg _ _, _ => neg
  | .overflow neg, .sum => neg
  | .overflow _, .product => s.undef 2
  | .overflow _, .quotient => s.undef 2
  | _, _ => false

/-- The condition code of an outcome. -/
def State.setFloatCC (s : State) (chart : FloatChart) (r : FloatResult) : State :=
  (s.setCC { C := s.floatC chart r, V := r.isFault, G := s.floatG chart r, L := s.floatL chart r }).drew 3

/-- Writes what an outcome puts into R1. -/
def State.writeFloatResult (s : State) (r1 : RegNo) (r : FloatResult) (k : State → Outcome) : Outcome :=
  match r.register with
  | some v => s.writeFloat r1 v k
  | none => k s

/-- The Floating-Point Arithmetic Fault with the advanced location counter, when `fault` holds and PSW.FP is set
(60_exceptions.md rule R409). -/
def State.floatTrap (s : State) (fault : Bool) : Outcome :=
  if fault && s.psw.control.FP then s.raise .floatFault s.psw.LOC else .next s

/-- `fp_complete(outcome)`: result and condition code first, then the fault (rule R283, log 29). -/
def floatComplete (chart : FloatChart) (r1 : RegNo) (r : FloatResult) (len : Half) (s : State) : Outcome :=
  s.writeFloatResult r1 r fun t => ((t.setFloatCC chart r).advance len).floatTrap r.isFault

/-- Arithmetic on an operand that is not normalized: "the results of the instructions are undefined" (rule R282). The
register and the condition code are free and no interrupt is taken, 93_implementation_defined.md U4's laxer model
(log 16). -/
def floatUndefined (r1 : RegNo) (len : Half) (s : State) : Outcome :=
  s.writeFloat r1 (s.undefFull 0) fun t => .next (((t.setCC (t.undefCC 2)).drew 6).advance len)

/-- Add, subtract, multiply and divide: the outcome of the function on normalized operands, the first of which is f[r1]
(rules R282, R283). -/
def floatArithmetic (f : Full → Full → FloatResult) (chart : FloatChart) (r1 : RegNo) (a b : Full) (len : Half)
    (s : State) : Outcome :=
  if isNormalized a && isNormalized b then floatComplete chart r1 (f a b) len s else floatUndefined r1 len s

/-- `CC <- fp_cmp(a, b)` (rule R294). On an operand that is not normalized the condition code is free (log 16). -/
def floatCompare (a b : Full) (len : Half) (s : State) : Outcome :=
  if isNormalized a && isNormalized b then
    .next (((s.setCC { C := decide (floatValue a < floatValue b), V := s.undef 0
                       G := decide (floatValue b < floatValue a)
                       L := decide (floatValue a < floatValue b) }).drew 1).advance len)
  else .next (((s.setCC (s.undefCC 0)).drew 4).advance len)

/-- The operands of an RR instruction, f[r1] and f[r2], read in this order; both numbers must be even (rule R281). -/
def State.floatRegisters (s : State) (r1 r2 : RegNo) (k : Full → Full → State → Outcome) : Outcome :=
  requireEvenPair r1 r2 (s.readFloat r1 fun a t => t.readFloat r2 fun b => k a b)

/-- The operands of an RX instruction, f[r1] and the fullword at an even effective address, read in this order
(rule R281). -/
def State.floatOperands (s : State) (r1 x2 : RegNo) (a2 : Half) (k : Full → Full → State → Outcome) : Outcome :=
  requireR1Even r1 (requireEven (s.ea x2 a2)
    (s.readFloat r1 fun a t => t.readFull s.psw.OB (s.ea x2 a2) fun b => k a b))

/-- LER: Floating-Point Load Register (rule R287). -/
def execLer (r1 r2 : RegNo) (s : State) : Outcome :=
  requireEvenPair r1 r2 (s.readFloat r2 fun w => floatComplete .sum r1 (floatLoad w) 2)

/-- LE: Floating-Point Load (rule R288). -/
def execLe (r1 x2 : RegNo) (a2 : Half) (s : State) : Outcome :=
  requireR1Even r1 (s.fullOperand x2 a2 fun w => floatComplete .sum r1 (floatLoad w) 4)

/-- STE: Floating-Point Store (rule R289). -/
def execSte (r1 x2 : RegNo) (a2 : Half) (s : State) : Outcome :=
  requireR1Even r1 (requireEven (s.ea x2 a2)
    (s.readFloat r1 fun v t => t.writeFull s.psw.OB (s.ea x2 a2) v fun u => .next (u.advance 4)))

/-- AER: Floating-Point Add Register (rule R290). -/
def execAer (r1 r2 : RegNo) (s : State) : Outcome :=
  s.floatRegisters r1 r2 fun a b => floatArithmetic s.fpAdd .sum r1 a b 2

/-- AE: Floating-Point Add (rule R291). -/
def execAe (r1 x2 : RegNo) (a2 : Half) (s : State) : Outcome :=
  s.floatOperands r1 x2 a2 fun a b => floatArithmetic s.fpAdd .sum r1 a b 4

/-- SER: Floating-Point Subtract Register (rule R292). -/
def execSer (r1 r2 : RegNo) (s : State) : Outcome :=
  s.floatRegisters r1 r2 fun a b => floatArithmetic s.fpSub .sum r1 a b 2

/-- SE: Floating-Point Subtract (rule R293). -/
def execSe (r1 x2 : RegNo) (a2 : Half) (s : State) : Outcome :=
  s.floatOperands r1 x2 a2 fun a b => floatArithmetic s.fpSub .sum r1 a b 4

/-- CER: Floating-Point Compare Register (rule R294). -/
def execCer (r1 r2 : RegNo) (s : State) : Outcome := s.floatRegisters r1 r2 fun a b => floatCompare a b 2

/-- CE: Floating-Point Compare (rule R295). -/
def execCe (r1 x2 : RegNo) (a2 : Half) (s : State) : Outcome :=
  s.floatOperands r1 x2 a2 fun a b => floatCompare a b 4

/-- MER: Floating-Point Multiply Register (rule R296). -/
def execMer (r1 r2 : RegNo) (s : State) : Outcome :=
  s.floatRegisters r1 r2 fun a b => floatArithmetic s.fpMul .product r1 a b 2

/-- ME: Floating-Point Multiply (rule R297). -/
def execMe (r1 x2 : RegNo) (a2 : Half) (s : State) : Outcome :=
  s.floatOperands r1 x2 a2 fun a b => floatArithmetic s.fpMul .product r1 a b 4

/-- DER: Floating-Point Divide Register (rule R298). -/
def execDer (r1 r2 : RegNo) (s : State) : Outcome :=
  s.floatRegisters r1 r2 fun a b => floatArithmetic s.fpDiv .quotient r1 a b 2

/-- DE: Floating-Point Divide (rule R299). -/
def execDe (r1 x2 : RegNo) (a2 : Half) (s : State) : Outcome :=
  s.floatOperands r1 x2 a2 fun a b => floatArithmetic s.fpDiv .quotient r1 a b 4

/-- LFR: the 48-bit floating-point load, register to register, a no-op (rule R301). -/
def execLfr (_r1 _r2 : RegNo) (s : State) : Outcome := .next (s.advance 2)

/-- CFR: the 48-bit floating-point compare, register to register, a no-op (rule R301). -/
def execCfr (_r1 _r2 : RegNo) (s : State) : Outcome := .next (s.advance 2)

/-- AFR: the 48-bit floating-point add, register to register, a no-op (rule R301). -/
def execAfr (_r1 _r2 : RegNo) (s : State) : Outcome := .next (s.advance 2)

/-- SFR: the 48-bit floating-point subtract, register to register, a no-op (rule R301). -/
def execSfr (_r1 _r2 : RegNo) (s : State) : Outcome := .next (s.advance 2)

/-- MFR: the 48-bit floating-point multiply, register to register, a no-op (rule R301). -/
def execMfr (_r1 _r2 : RegNo) (s : State) : Outcome := .next (s.advance 2)

/-- DFR: the 48-bit floating-point divide, register to register, a no-op (rule R301). -/
def execDfr (_r1 _r2 : RegNo) (s : State) : Outcome := .next (s.advance 2)

/-- STF: the 48-bit floating-point store, a no-op (rule R301). -/
def execStf (_r1 _x2 : RegNo) (_a2 : Half) (s : State) : Outcome := .next (s.advance 4)

/-- LF: the 48-bit floating-point load, a no-op (rule R301). -/
def execLf (_r1 _x2 : RegNo) (_a2 : Half) (s : State) : Outcome := .next (s.advance 4)

/-- CF: the 48-bit floating-point compare, a no-op (rule R301). -/
def execCf (_r1 _x2 : RegNo) (_a2 : Half) (s : State) : Outcome := .next (s.advance 4)

/-- AF: the 48-bit floating-point add, a no-op (rule R301). -/
def execAf (_r1 _x2 : RegNo) (_a2 : Half) (s : State) : Outcome := .next (s.advance 4)

/-- SF: the 48-bit floating-point subtract, a no-op (rule R301). -/
def execSf (_r1 _x2 : RegNo) (_a2 : Half) (s : State) : Outcome := .next (s.advance 4)

/-- MF: the 48-bit floating-point multiply, a no-op (rule R301). -/
def execMf (_r1 _x2 : RegNo) (_a2 : Half) (s : State) : Outcome := .next (s.advance 4)

/-- DF: the 48-bit floating-point divide, a no-op (rule R301). -/
def execDf (_r1 _x2 : RegNo) (_a2 : Half) (s : State) : Outcome := .next (s.advance 4)

end Sys2Proof.Machine
end

