-- ==== Sys2Proof/Machine/InputOutput.lean ====
section
/-! DEFINITION. The input/output instructions (48_input_output.md) as transactions with the device oracle of rule R330.
Each call takes the head of its queue of answers and is written down; an empty queue answers as log 18 says. -/

namespace Sys2Proof.Machine

/-- Writes a call of the oracle down. -/
def State.called (s : State) (c : DevCall) : State := { s with env := { s.env with calls := c :: s.env.calls } }

/-- The answer of `Dev.select`: true is `sync`; with no answer left, `timeout`. -/
def State.selectAnswer (s : State) : Bool := s.env.selects.headD false

/-- After `Dev.select(d)`. -/
def State.afterSelect (s : State) (d : Byte) : State :=
  { s with env := { s.env with selects := s.env.selects.tail } }.called (.select d)

/-- The answer of `Dev.status`; with no answer left, device unavailable. -/
def State.statusAnswer (s : State) : Byte := s.env.statuses.headD 0x01

/-- After `Dev.status(d)`. -/
def State.afterStatus (s : State) (d : Byte) : State :=
  { s with env := { s.env with statuses := s.env.statuses.tail } }.called (.status d)

/-- The answer of `Dev.command`; with no answer left, the command can not be completed. -/
def State.commandAnswer (s : State) : Bool := s.env.commands.headD true

/-- After `Dev.command(d, b)`. -/
def State.afterCommand (s : State) (d b : Byte) : State :=
  { s with env := { s.env with commands := s.env.commands.tail } }.called (.command d b)

/-- The answer of `Dev.read`; with no answer left, a free value. -/
def State.readAnswer (s : State) : Byte := s.env.reads.headD (lowByte (s.undefHalf 0))

/-- After `Dev.read(d)`. -/
def State.afterRead (s : State) (d : Byte) : State :=
  ({ s with env := { s.env with reads := s.env.reads.tail } }.called (.read d)).drew 1

/-- The answer of `Dev.read_h`; with no answer left, a free value. -/
def State.readHalfAnswer (s : State) : Half := s.env.readHalves.headD (s.undefHalf 0)

/-- After `Dev.read_h(d)`. -/
def State.afterReadHalf (s : State) (d : Byte) : State :=
  ({ s with env := { s.env with readHalves := s.env.readHalves.tail } }.called (.readHalf d)).drew 1

/-- `cc_data(v)` and, with v = 1, `cc_timeout` (rule R333). -/
def State.setDataCC (s : State) (v : Bool) : State :=
  (s.setCC { C := s.undef 0, V := v, G := s.undef 1, L := s.undef 2 }).drew 3

/-- Bits 4:7 of a status byte. -/
def statusNibble (b : Byte) : BitVec 4 := b.extractLsb' 0 4

/-- `cc_status(s)` (rule R333). -/
def State.setStatusCC (s : State) (b : Byte) : State := s.setCC (CC.ofBits (statusNibble b))

/-- The device number in R1 (rule R331): a nonzero high byte is UNSPECIFIED (log 31). -/
def State.withDevice (s : State) (r1 : RegNo) (k : Byte → Outcome) : Outcome :=
  require (decide (highByte (s.reg r1) = 0)) .deviceNumberHighByte (k (lowByte (s.reg r1)))

/-- Addresses the device and goes on with what `sync` or `timeout` gives (rule R331). -/
def State.selected (s : State) (d : Byte) (late sync : State → Outcome) : Outcome :=
  if s.selectAnswer then sync (s.afterSelect d) else late (s.afterSelect d)

/-- `cc_timeout` and the next instruction (rules R331, R333). -/
def timedOut (len : Half) (s : State) : Outcome := .next ((s.setDataCC true).advance len)

/-- A time-out that leaves a register UNDEF (rule R333, log 31). -/
def State.lateRegister (s : State) (r : RegNo) : State := (s.setReg r (s.undefHalf 0)).drew 1

/-- A time-out that leaves the register `r` UNDEF. -/
def timedOutRegister (r : RegNo) (len : Half) (s : State) : Outcome := timedOut len (s.lateRegister r)

/-- A time-out that leaves a byte of memory UNDEF. -/
def timedOutByte (b : BankNo) (a : Half) (len : Half) (s : State) : Outcome :=
  s.writeByte b a (lowByte (s.undefHalf 0)) fun t => timedOut len (t.drew 1)

/-- A time-out that leaves a halfword of memory UNDEF. -/
def timedOutHalf (b : BankNo) (a : Half) (len : Half) (s : State) : Outcome :=
  s.writeHalf b a (s.undefHalf 0) fun t => timedOut len (t.drew 1)

/-- Output Command to a device that answers (rule R338). -/
def outputCommand (d b : Byte) (len : Half) (s : State) : Outcome :=
  .next (((s.afterCommand d b).setDataCC s.commandAnswer).advance len)

/-- Write Data to a device that answers (rule R342). -/
def writeData (d b : Byte) (len : Half) (s : State) : Outcome := .next (((s.called (.write d b)).setDataCC false).advance len)

/-- Write Halfword to a device that answers (rule R346). -/
def writeDataHalf (d : Byte) (h : Half) (len : Half) (s : State) : Outcome :=
  .next (((s.called (.writeHalf d h)).setDataCC false).advance len)

/-- The limits of a block transfer (rule R348): the number of bytes from `start` to `last`, limits included, and 0 where
the start is greater. -/
def blockCount (start last : Half) : Nat := last.toNat + 1 - start.toNat

/-- The loop of Read Block (rule R348): `n` bytes into memory from `a` on, one transfer each, the status examined before
each. -/
def State.readBlock (b : BankNo) (d : Byte) (len : Half) : (n : Nat) → (a : Half) → State → Outcome
  | 0, _, s => .next ((s.setCC (CC.ofBits 0)).advance len)
  | n + 1, a, s =>
    let t := s.afterStatus d
    if statusNibble s.statusAnswer ≠ 0 then .next ((t.setStatusCC s.statusAnswer).advance len)
    else (t.afterRead d).writeByte b a t.readAnswer (State.readBlock b d len n (a + 1))

/-- The loop of Write Block (rule R348). -/
def State.writeBlock (b : BankNo) (d : Byte) (len : Half) : (n : Nat) → (a : Half) → State → Outcome
  | 0, _, s => .next ((s.setCC (CC.ofBits 0)).advance len)
  | n + 1, a, s =>
    let t := s.afterStatus d
    if statusNibble s.statusAnswer ≠ 0 then .next ((t.setStatusCC s.statusAnswer).advance len)
    else t.readByte b a fun v u => State.writeBlock b d len n (a + 1) (u.called (.write d v))

/-- `block(d, start, end, dir)` (rule R348): with the start greater than the end nothing is transferred and the
condition code is zero. -/
def State.block (s : State) (loop : BankNo → Byte → Half → Nat → Half → State → Outcome) (d : Byte) (start last : Half)
    (len : Half) : Outcome :=
  if last.ult start then .next ((s.setCC (CC.ofBits 0)).advance len)
  else s.selected d (timedOut len) (loop s.psw.OB d len (blockCount start last) start)

/-- The limits of a memory-form block transfer, two halfwords at `EA` and `EA + 2` read once (rules R350, R352), and the
device number. -/
def State.withLimits (s : State) (r1 x2 : RegNo) (a2 : Half) (k : Byte → Half → Half → State → Outcome) : Outcome :=
  let a := s.ea x2 a2
  requireEven a (s.withDevice r1 fun d =>
    s.readHalf s.psw.OB a fun start t => t.readHalf s.psw.OB (a + 2) fun last => k d start last)

/-- The loop of Autoload (rule R353): bytes from the device to bank 0 from `a` to `last`, leading zeros skipped, the
status examined before each. `n` counts the status answers left; the one after them is "device unavailable" (log 18),
which ends the loop. -/
def State.autoload (d : Byte) (last : Half) : (n : Nat) → (leader : Bool) → (a : Half) → State → Outcome
  | 0, _, _, s => .next (((s.afterStatus d).setStatusCC s.statusAnswer).advance 4)
  | n + 1, leader, a, s =>
    let t := s.afterStatus d
    let b := t.readAnswer
    let u := t.afterRead d
    if statusNibble s.statusAnswer ≠ 0 then .next ((t.setStatusCC s.statusAnswer).advance 4)
    else if leader && decide (b = 0) then State.autoload d last n true a u
    else u.writeByte 0 a b fun v =>
      if a = last then .next ((v.setCC (CC.ofBits 0)).advance 4) else State.autoload d last n false (a + 1) v

/-- AIR: Acknowledge Interrupt Register; R1 is written before R2 (rule R334). -/
def execAir (r1 r2 : RegNo) (s : State) : Outcome :=
  s.privileged (match s.acknowledgeAnswer with
    | none => timedOutRegister r2 2 (s.afterAcknowledge.lateRegister r1)
    | some (d, b) =>
      .next ((((s.afterAcknowledge).setReg r1 (d.setWidth 16)).setReg r2 (b.setWidth 16)).setStatusCC b |>.advance 2))

/-- AI: Acknowledge Interrupt (rule R335). -/
def execAi (r1 x2 : RegNo) (a2 : Half) (s : State) : Outcome :=
  let a := s.ea x2 a2
  s.privileged (match s.acknowledgeAnswer with
    | none => timedOutByte s.psw.OB a 4 (s.afterAcknowledge.lateRegister r1)
    | some (d, b) =>
      ((s.afterAcknowledge).setReg r1 (d.setWidth 16)).writeByte s.psw.OB a b fun t =>
        .next ((t.setStatusCC b).advance 4))

/-- SSR: Sense Status Register (rule R336). -/
def execSsr (r1 r2 : RegNo) (s : State) : Outcome :=
  s.privileged (s.withDevice r1 fun d => s.selected d (timedOutRegister r2 2) fun t =>
    .next ((((t.afterStatus d).setReg r2 (t.statusAnswer.setWidth 16)).setStatusCC t.statusAnswer).advance 2))

/-- SS: Sense Status (rule R337). -/
def execSs (r1 x2 : RegNo) (a2 : Half) (s : State) : Outcome :=
  let a := s.ea x2 a2
  s.privileged (s.withDevice r1 fun d => s.selected d (timedOutByte s.psw.OB a 4) fun t =>
    (t.afterStatus d).writeByte s.psw.OB a t.statusAnswer fun u => .next ((u.setStatusCC t.statusAnswer).advance 4))

/-- OCR: Output Command Register (rule R338). -/
def execOcr (r1 r2 : RegNo) (s : State) : Outcome :=
  s.privileged (s.withDevice r1 fun d => s.selected d (timedOut 2) (outputCommand d (lowByte (s.reg r2)) 2))

/-- OC: Output Command; the command byte is read before the device is addressed (rule R339). -/
def execOc (r1 x2 : RegNo) (a2 : Half) (s : State) : Outcome :=
  s.privileged (s.withDevice r1 fun d => s.byteOperand x2 a2 fun b t => t.selected d (timedOut 4) (outputCommand d b 4))

/-- RDR: Read Data Register; the high byte of R2 is cleared (log 31) (rule R340). -/
def execRdr (r1 r2 : RegNo) (s : State) : Outcome :=
  s.privileged (s.withDevice r1 fun d => s.selected d (timedOutRegister r2 2) fun t =>
    .next ((((t.afterRead d).setReg r2 (t.readAnswer.setWidth 16)).setDataCC false).advance 2))

/-- RD: Read Data (rule R341). -/
def execRd (r1 x2 : RegNo) (a2 : Half) (s : State) : Outcome :=
  let a := s.ea x2 a2
  s.privileged (s.withDevice r1 fun d => s.selected d (timedOutByte s.psw.OB a 4) fun t =>
    (t.afterRead d).writeByte s.psw.OB a t.readAnswer fun u => .next ((u.setDataCC false).advance 4))

/-- WDR: Write Data Register (rule R342). -/
def execWdr (r1 r2 : RegNo) (s : State) : Outcome :=
  s.privileged (s.withDevice r1 fun d => s.selected d (timedOut 2) (writeData d (lowByte (s.reg r2)) 2))

/-- WD: Write Data (rule R343). -/
def execWd (r1 x2 : RegNo) (a2 : Half) (s : State) : Outcome :=
  s.privileged (s.withDevice r1 fun d => s.byteOperand x2 a2 fun b t => t.selected d (timedOut 4) (writeData d b 4))

/-- RHR: Read Halfword Register (rule R344). -/
def execRhr (r1 r2 : RegNo) (s : State) : Outcome :=
  s.privileged (s.withDevice r1 fun d => s.selected d (timedOutRegister r2 2) fun t =>
    .next ((((t.afterReadHalf d).setReg r2 t.readHalfAnswer).setDataCC false).advance 2))

/-- RH: Read Halfword (rule R345). -/
def execRh (r1 x2 : RegNo) (a2 : Half) (s : State) : Outcome :=
  let a := s.ea x2 a2
  s.privileged (requireEven a (s.withDevice r1 fun d => s.selected d (timedOutHalf s.psw.OB a 4) fun t =>
    (t.afterReadHalf d).writeHalf s.psw.OB a t.readHalfAnswer fun u => .next ((u.setDataCC false).advance 4)))

/-- WHR: Write Halfword Register (rule R346). -/
def execWhr (r1 r2 : RegNo) (s : State) : Outcome :=
  s.privileged (s.withDevice r1 fun d => s.selected d (timedOut 2) (writeDataHalf d (s.reg r2) 2))

/-- WH: Write Halfword (rule R347). -/
def execWh (r1 x2 : RegNo) (a2 : Half) (s : State) : Outcome :=
  let a := s.ea x2 a2
  s.privileged (requireEven a (s.withDevice r1 fun d =>
    s.readHalf s.psw.OB a fun h t => t.selected d (timedOut 4) (writeDataHalf d h 4)))

/-- AL: Autoload (rule R353). -/
def execAl (r1 x2 : RegNo) (a2 : Half) (s : State) : Outcome :=
  let last := s.ea x2 a2
  s.privileged (require (decide (r1 = 0)) (.mustBeZero .R1)
    (require (decide (s.psw.OB = 0) && decide (0x80 ≤ last.toNat)) .autoloadRange
      (s.readByte 0 0x0078 fun d t => t.readByte 0 0x0079 fun c u =>
        u.selected d (timedOut 4) fun v =>
          State.autoload d last v.env.statuses.length true 0x0080 (v.afterCommand d c))))

/-- RBR: Read Block Register (rule R349). -/
def execRbr (r1 r2 : RegNo) (s : State) : Outcome :=
  s.privileged (require (r2.ule 14) (.reservedRegister .R2)
    (s.withDevice r1 fun d => s.block State.readBlock d (s.reg r2) (s.reg (r2 + 1)) 2))

/-- RB: Read Block (rule R350). -/
def execRb (r1 x2 : RegNo) (a2 : Half) (s : State) : Outcome :=
  s.privileged (s.withLimits r1 x2 a2 fun d start last t => t.block State.readBlock d start last 4)

/-- WBR: Write Block Register (rule R351). -/
def execWbr (r1 r2 : RegNo) (s : State) : Outcome :=
  s.privileged (require (r2.ule 14) (.reservedRegister .R2)
    (s.withDevice r1 fun d => s.block State.writeBlock d (s.reg r2) (s.reg (r2 + 1)) 2))

/-- WB: Write Block (rule R352). -/
def execWb (r1 x2 : RegNo) (a2 : Half) (s : State) : Outcome :=
  s.privileged (s.withLimits r1 x2 a2 fun d start last t => t.block State.writeBlock d start last 4)

end Sys2Proof.Machine
end

