-- ==== Sys2Proof/Machine/Lists.lean ====
section
/-! DEFINITION. The list instructions (49_list_trig_augment.md rules R360 to R364). -/

namespace Sys2Proof.Machine

/-- The header of a list (rule R360). -/
structure ListHeader where
  /-- Number of slots. -/
  n : Byte
  /-- Number of slots in use. -/
  used : Byte
  /-- Current Top Pointer. -/
  top : Byte
  /-- Next Bottom Pointer. -/
  bot : Byte
deriving DecidableEq, Repr

/-- The headers the rules are stated for (rule R360, log 33). -/
def ListHeader.consistent (h : ListHeader) : Bool :=
  h.used.ule h.n && (decide (h.n = 0) || (h.top.ult h.n && h.bot.ult h.n))

/-- The address of slot `i`. -/
def slotAddress (a : Half) (i : Byte) : Half := a + 4 + (i.setWidth 16 + i.setWidth 16)

/-- The slot before, the last one before slot 0 (list wrap). -/
def ListHeader.before (h : ListHeader) (i : Byte) : Byte := if i = 0 then h.n - 1 else i - 1

/-- The slot after, slot 0 after the last one (list wrap). -/
def ListHeader.after (h : ListHeader) (i : Byte) : Byte := if (h.n - 1).ult (i + 1) then 0 else i + 1

/-- A list operand for the instructions that use the Current Top Pointer: an even address, the first three header bytes,
one transfer each, and a consistent header (rules R360, R361, R363, 20_memory.md rule R78). The bottom pointer, which
they do not fetch, is the one that then stands in memory; where that byte is absent memory it is examined all the same, as
what memory then reads there (DESIGN CHOICE, log 33). -/
def State.withListTop (s : State) (x2 : RegNo) (a2 : Half) (k : Half → ListHeader → State → Outcome) : Outcome :=
  let a := s.ea x2 a2
  let b := s.psw.OB
  requireEven a (s.readByte b a fun n t => t.readByte b (a + 1) fun used u => u.readByte b (a + 2) fun top v =>
    let h : ListHeader := { n := n, used := used, top := top, bot := v.byteAt b (a + 3) }
    require h.consistent .listHeader (k a h v))

/-- A list operand for the instructions that use the Next Bottom Pointer (rules R360, R362, R364). The top pointer is
examined as it then stands in memory, also where that byte is absent memory (DESIGN CHOICE, log 33). -/
def State.withListBottom (s : State) (x2 : RegNo) (a2 : Half) (k : Half → ListHeader → State → Outcome) : Outcome :=
  let a := s.ea x2 a2
  let b := s.psw.OB
  requireEven a (s.readByte b a fun n t => t.readByte b (a + 1) fun used u => u.readByte b (a + 3) fun bot v =>
    let h : ListHeader := { n := n, used := used, top := v.byteAt b (a + 2), bot := bot }
    require h.consistent .listHeader (k a h v))

/-- List overflow or underflow: V alone is set, nothing else changes (rules R361, R363). -/
def listFlagged (s : State) : Outcome := .next ((s.setCC (CC.ofBits 4)).advance 4)

/-- An element has been added (rule R361). -/
def listAdded (s : State) : Outcome := .next ((s.setCC (CC.ofBits 0)).advance 4)

/-- An element has been removed: G says that the list is not yet empty (rule R363). -/
def listRemoved (left : Byte) (s : State) : Outcome :=
  .next ((s.setCC (CC.ofBits (if left = 0 then 0 else 2))).advance 4)

/-- ATL: Add to Top of List (rule R361). -/
def execAtl (r1 x2 : RegNo) (a2 : Half) (s : State) : Outcome :=
  s.withListTop x2 a2 fun a h t =>
    let top := h.before h.top
    let b := s.psw.OB
    if h.used = h.n then listFlagged t
    else t.writeByte b (a + 1) (h.used + 1) fun u => u.writeByte b (a + 2) top fun v =>
      v.writeHalf b (slotAddress a top) (s.reg r1) listAdded

/-- ABL: Add to Bottom of List (rule R362). -/
def execAbl (r1 x2 : RegNo) (a2 : Half) (s : State) : Outcome :=
  s.withListBottom x2 a2 fun a h t =>
    let b := s.psw.OB
    if h.used = h.n then listFlagged t
    else t.writeHalf b (slotAddress a h.bot) (s.reg r1) fun u => u.writeByte b (a + 1) (h.used + 1) fun v =>
      v.writeByte b (a + 3) (h.after h.bot) listAdded

/-- RTL: Remove from Top of List (rule R363). -/
def execRtl (r1 x2 : RegNo) (a2 : Half) (s : State) : Outcome :=
  s.withListTop x2 a2 fun a h t =>
    let b := s.psw.OB
    if h.used = 0 then listFlagged t
    else t.readHalf b (slotAddress a h.top) fun element u =>
      (u.setReg r1 element).writeByte b (a + 1) (h.used - 1) fun v =>
        v.writeByte b (a + 2) (h.after h.top) (listRemoved (h.used - 1))

/-- RBL: Remove from Bottom of List (rule R364). -/
def execRbl (r1 x2 : RegNo) (a2 : Half) (s : State) : Outcome :=
  s.withListBottom x2 a2 fun a h t =>
    let bot := h.before h.bot
    let b := s.psw.OB
    if h.used = 0 then listFlagged t
    else t.readHalf b (slotAddress a bot) fun element u =>
      (u.setReg r1 element).writeByte b (a + 1) (h.used - 1) fun v =>
        v.writeByte b (a + 3) bot (listRemoved (h.used - 1))

end Sys2Proof.Machine
end

