-- ==== Sys2Proof/Machine/LoadStore.lean ====
section
/-! DEFINITION. The fixed-point load and store instructions (40_load_store.md). -/

namespace Sys2Proof.Machine

/-- `x[r1] <- v`, `CC <- load_cc(v)`, advance: what every halfword load ends with (rule R120). -/
def loadHalf (r1 : RegNo) (v : Half) (len : Half) (s : State) : Outcome :=
  .next (((s.setReg r1 v).setSignCC v).advance len)

/-- `xp[r1] <- v`, `CC <- load_cc(v)`, advance: what the fullword loads end with (rule R120). -/
def loadFull (r1 : RegNo) (v : Full) (len : Half) (s : State) : Outcome :=
  .next (((s.setPair r1 v).setSignCC v).advance len)

/-- A halfword load through a bank (rules R124, R128). -/
def loadFromBank (b : BankNo) (r1 x2 : RegNo) (a2 : Half) (s : State) : Outcome :=
  s.withHalf b (s.ea x2 a2) fun v => loadHalf r1 v 4

/-- A halfword store through a bank; the condition code is unchanged (rules R134, R135). -/
def storeToBank (b : BankNo) (r1 x2 : RegNo) (a2 : Half) (s : State) : Outcome :=
  requireEven (s.ea x2 a2) (s.writeHalf b (s.ea x2 a2) (s.reg r1) fun t => .next (t.advance 4))

/-- LIS: Load Immediate Short (rule R121). -/
def execLis (r1 n : RegNo) (s : State) : Outcome := loadHalf r1 (shortData n) 2 s

/-- LCS: Load Complement Short (rule R122). -/
def execLcs (r1 n : RegNo) (s : State) : Outcome := loadHalf r1 (-shortData n) 2 s

/-- LHR: Load Halfword Register (rule R123). -/
def execLhr (r1 r2 : RegNo) (s : State) : Outcome := loadHalf r1 (s.reg r2) 2 s

/-- LH: Load Halfword (rule R124). -/
def execLh (r1 x2 : RegNo) (a2 : Half) (s : State) : Outcome := loadFromBank s.psw.OB r1 x2 a2 s

/-- LHI: Load Halfword Immediate (rule R125). -/
def execLhi (r1 x2 : RegNo) (i2 : Half) (s : State) : Outcome := loadHalf r1 (s.immediate x2 i2) 4 s

/-- LDPR: Load Fullword Register (rule R126). -/
def execLdpr (r1 r2 : RegNo) (s : State) : Outcome := requireEvenPair r1 r2 (loadFull r1 (s.pair r2) 2 s)

/-- LDP: Load Fullword (rule R127). -/
def execLdp (r1 x2 : RegNo) (a2 : Half) (s : State) : Outcome :=
  requireR1Even r1 (s.fullOperand x2 a2 fun v => loadFull r1 v 4)

/-- LH0: Load From Bank 0 (rule R128). -/
def execLh0 (r1 x2 : RegNo) (a2 : Half) (s : State) : Outcome := loadFromBank 0 r1 x2 a2 s

/-- LH1: Load From Bank 1 (rule R129). -/
def execLh1 (r1 x2 : RegNo) (a2 : Half) (s : State) : Outcome := loadFromBank 1 r1 x2 a2 s

/-- LH2: Load From Bank 2 (rule R130). -/
def execLh2 (r1 x2 : RegNo) (a2 : Half) (s : State) : Outcome := loadFromBank 2 r1 x2 a2 s

/-- LH3: Load From Bank 3 (rule R131). -/
def execLh3 (r1 x2 : RegNo) (a2 : Half) (s : State) : Outcome := loadFromBank 3 r1 x2 a2 s

/-- LM: Load Multiple; the effective address is computed once, before any register is written (log 30) (rule R132). -/
def execLm (r1 x2 : RegNo) (a2 : Half) (s : State) : Outcome :=
  requireEven (s.ea x2 a2)
    (State.loadMultiple s.psw.OB (multipleCount r1) r1 (s.ea x2 a2) (fun t => .next (t.advance 4)) s)

/-- STM: Store Multiple (rule R133). -/
def execStm (r1 x2 : RegNo) (a2 : Half) (s : State) : Outcome :=
  requireEven (s.ea x2 a2)
    (State.storeMultiple s.psw.OB (multipleCount r1) r1 (s.ea x2 a2) (fun t => .next (t.advance 4)) s)

/-- STH: Store Halfword (rule R134). -/
def execSth (r1 x2 : RegNo) (a2 : Half) (s : State) : Outcome := storeToBank s.psw.OB r1 x2 a2 s

/-- STH0: Store in Bank 0 (rule R135). -/
def execSth0 (r1 x2 : RegNo) (a2 : Half) (s : State) : Outcome := storeToBank 0 r1 x2 a2 s

/-- STH1: Store in Bank 1 (rule R136). -/
def execSth1 (r1 x2 : RegNo) (a2 : Half) (s : State) : Outcome := storeToBank 1 r1 x2 a2 s

/-- STH2: Store in Bank 2 (rule R137). -/
def execSth2 (r1 x2 : RegNo) (a2 : Half) (s : State) : Outcome := storeToBank 2 r1 x2 a2 s

/-- STH3: Store in Bank 3 (rule R138). -/
def execSth3 (r1 x2 : RegNo) (a2 : Half) (s : State) : Outcome := storeToBank 3 r1 x2 a2 s

/-- STDP: Store Fullword (rule R139). -/
def execStdp (r1 x2 : RegNo) (a2 : Half) (s : State) : Outcome :=
  requireR1Even r1 (requireEven (s.ea x2 a2)
    (s.writeFull s.psw.OB (s.ea x2 a2) (s.pair r1) fun t => .next (t.advance 4)))

end Sys2Proof.Machine
end

