-- ==== Sys2Proof/Machine/Logical.lean ====
section
/-! DEFINITION. The logical and compare instructions (42_logical_compare.md). -/

namespace Sys2Proof.Machine

/-- A logical result into R1 with `logical_cc` (rule R190). -/
def logicalResult (r1 : RegNo) (r : Half) (len : Half) (s : State) : Outcome :=
  .next (((s.setReg r1 r).setSignCC r).advance len)

/-- A logical compare: the condition code alone (rule R201). -/
def compareLogical {n : Nat} (a b : BitVec n) (len : Half) (s : State) : Outcome :=
  .next ((s.setLogicalCC a b).advance len)

/-- An algebraic compare: the condition code alone (rule R202). -/
def compareAlgebraic {n : Nat} (a b : BitVec n) (len : Half) (s : State) : Outcome :=
  .next ((s.setAlgebraicCC a b).advance len)

/-- NHR: AND Halfword Register (rule R191). -/
def execNhr (r1 r2 : RegNo) (s : State) : Outcome := logicalResult r1 (s.reg r1 &&& s.reg r2) 2 s

/-- NH: AND Halfword (rule R192). -/
def execNh (r1 x2 : RegNo) (a2 : Half) (s : State) : Outcome :=
  s.halfOperand x2 a2 fun v => logicalResult r1 (s.reg r1 &&& v) 4

/-- NHI: AND Halfword Immediate (rule R193). -/
def execNhi (r1 x2 : RegNo) (i2 : Half) (s : State) : Outcome := logicalResult r1 (s.reg r1 &&& s.immediate x2 i2) 4 s

/-- OHR: OR Halfword Register (rule R194). -/
def execOhr (r1 r2 : RegNo) (s : State) : Outcome := logicalResult r1 (s.reg r1 ||| s.reg r2) 2 s

/-- OH: OR Halfword (rule R195). -/
def execOh (r1 x2 : RegNo) (a2 : Half) (s : State) : Outcome :=
  s.halfOperand x2 a2 fun v => logicalResult r1 (s.reg r1 ||| v) 4

/-- OHI: OR Halfword Immediate (rule R196). -/
def execOhi (r1 x2 : RegNo) (i2 : Half) (s : State) : Outcome := logicalResult r1 (s.reg r1 ||| s.immediate x2 i2) 4 s

/-- XHR: Exclusive OR Halfword Register (rule R197). -/
def execXhr (r1 r2 : RegNo) (s : State) : Outcome := logicalResult r1 (s.reg r1 ^^^ s.reg r2) 2 s

/-- XH: Exclusive OR Halfword (rule R198). -/
def execXh (r1 x2 : RegNo) (a2 : Half) (s : State) : Outcome :=
  s.halfOperand x2 a2 fun v => logicalResult r1 (s.reg r1 ^^^ v) 4

/-- XHI: Exclusive OR Halfword Immediate (rule R199). -/
def execXhi (r1 x2 : RegNo) (i2 : Half) (s : State) : Outcome := logicalResult r1 (s.reg r1 ^^^ s.immediate x2 i2) 4 s

/-- THI: Test Halfword Immediate; no register is written (rule R200). -/
def execThi (r1 x2 : RegNo) (i2 : Half) (s : State) : Outcome :=
  .next ((s.setSignCC (s.reg r1 &&& s.immediate x2 i2)).advance 4)

/-- CLHR: Compare Logical Halfword Register (rule R203). -/
def execClhr (r1 r2 : RegNo) (s : State) : Outcome := compareLogical (s.reg r1) (s.reg r2) 2 s

/-- CLH: Compare Logical Halfword (rule R204). -/
def execClh (r1 x2 : RegNo) (a2 : Half) (s : State) : Outcome :=
  s.halfOperand x2 a2 fun v => compareLogical (s.reg r1) v 4

/-- CLHI: Compare Logical Halfword Immediate (rule R205). -/
def execClhi (r1 x2 : RegNo) (i2 : Half) (s : State) : Outcome := compareLogical (s.reg r1) (s.immediate x2 i2) 4 s

/-- CLDPR: Compare Logical Fullword Register (rule R206). -/
def execCldpr (r1 r2 : RegNo) (s : State) : Outcome :=
  requireEvenPair r1 r2 (compareLogical (s.pair r1) (s.pair r2) 2 s)

/-- CLDP: Compare Logical Fullword (rule R207). -/
def execCldp (r1 x2 : RegNo) (a2 : Half) (s : State) : Outcome :=
  requireR1Even r1 (s.fullOperand x2 a2 fun v => compareLogical (s.pair r1) v 4)

/-- CHR: Compare Halfword Register (rule R208). -/
def execChr (r1 r2 : RegNo) (s : State) : Outcome := compareAlgebraic (s.reg r1) (s.reg r2) 2 s

/-- CH: Compare Halfword (rule R209). -/
def execCh (r1 x2 : RegNo) (a2 : Half) (s : State) : Outcome :=
  s.halfOperand x2 a2 fun v => compareAlgebraic (s.reg r1) v 4

/-- CHI: Compare Halfword Immediate (rule R210). -/
def execChi (r1 x2 : RegNo) (i2 : Half) (s : State) : Outcome := compareAlgebraic (s.reg r1) (s.immediate x2 i2) 4 s

/-- CDPR: Compare Fullword Register (rule R211). -/
def execCdpr (r1 r2 : RegNo) (s : State) : Outcome :=
  requireEvenPair r1 r2 (compareAlgebraic (s.pair r1) (s.pair r2) 2 s)

/-- CDP: Compare Fullword (rule R212). -/
def execCdp (r1 x2 : RegNo) (a2 : Half) (s : State) : Outcome :=
  requireR1Even r1 (s.fullOperand x2 a2 fun v => compareAlgebraic (s.pair r1) v 4)

end Sys2Proof.Machine
end

