-- ==== Sys2Proof/Machine/Shift.lean ====
section
/-! DEFINITION. The shift and rotate instructions (44_shift_rotate.md). The count is the low order four, five or six bits
of the operand (rule R230). -/

namespace Sys2Proof.Machine

/-- A halfword shift by N or by the low four bits of `I2+(X2)` (rules R230, R231). -/
def shiftHalf (f : Half → Nat → ShiftResult 16) (r1 : RegNo) (count : BitVec 4) (len : Half) (s : State) : Outcome :=
  let r := f (s.reg r1) count.toNat
  .next (((s.setReg r1 r.value).setShiftCC r count.toNat).advance len)

/-- A fullword shift of R1, R1+1 by the low five bits of `I2+(X2)` (rules R230, R231). -/
def shiftFull (f : Full → Nat → ShiftResult 32) (r1 : RegNo) (operand : Half) (s : State) : Outcome :=
  let n := (operand.extractLsb' 0 5).toNat
  let r := f (s.pair r1) n
  requireR1Even r1 (.next (((s.setPair r1 r.value).setShiftCC r n).advance 4))

/-- A doubleword shift of R1 to R1+3 by the low six bits of `I2+(X2)` (rules R230, R231). -/
def shiftDouble (f : Dbl → Nat → ShiftResult 64) (r1 : RegNo) (operand : Half) (s : State) : Outcome :=
  let n := (operand.extractLsb' 0 6).toNat
  let r := f (s.quad r1) n
  requireQuad r1 (.next (((s.setQuad r1 r.value).setShiftCC r n).advance 4))

/-- A rotate of R1, R1+1 by the low five bits of `I2+(X2)`; C and V are reset (rules R242, R243). -/
def rotateFull (f : Full → Nat → Full) (r1 : RegNo) (operand : Half) (s : State) : Outcome :=
  let r := f (s.pair r1) (operand.extractLsb' 0 5).toNat
  requireR1Even r1 (.next (((s.setPair r1 r).setRotateCC r).advance 4))

/-- SLLS: Shift Left Logical Short (rule R232). -/
def execSlls (r1 n : RegNo) (s : State) : Outcome := shiftHalf shiftLeftLogical r1 n 2 s

/-- SLHL: Shift Left Halfword Logical (rule R233). -/
def execSlhl (r1 x2 : RegNo) (i2 : Half) (s : State) : Outcome :=
  shiftHalf shiftLeftLogical r1 ((s.immediate x2 i2).extractLsb' 0 4) 4 s

/-- SRLS: Shift Right Logical Short (rule R234). -/
def execSrls (r1 n : RegNo) (s : State) : Outcome := shiftHalf shiftRightLogical r1 n 2 s

/-- SRHL: Shift Right Halfword Logical (rule R235). -/
def execSrhl (r1 x2 : RegNo) (i2 : Half) (s : State) : Outcome :=
  shiftHalf shiftRightLogical r1 ((s.immediate x2 i2).extractLsb' 0 4) 4 s

/-- SLHA: Shift Left Halfword Arithmetic (rule R236). -/
def execSlha (r1 x2 : RegNo) (i2 : Half) (s : State) : Outcome :=
  shiftHalf shiftLeftArithmetic r1 ((s.immediate x2 i2).extractLsb' 0 4) 4 s

/-- SRHA: Shift Right Halfword Arithmetic (rule R237). -/
def execSrha (r1 x2 : RegNo) (i2 : Half) (s : State) : Outcome :=
  shiftHalf shiftRightArithmetic r1 ((s.immediate x2 i2).extractLsb' 0 4) 4 s

/-- SLL: Shift Left Logical, fullword (rule R238). -/
def execSll (r1 x2 : RegNo) (i2 : Half) (s : State) : Outcome := shiftFull shiftLeftLogical r1 (s.immediate x2 i2) s

/-- SRL: Shift Right Logical, fullword (rule R239). -/
def execSrl (r1 x2 : RegNo) (i2 : Half) (s : State) : Outcome := shiftFull shiftRightLogical r1 (s.immediate x2 i2) s

/-- SLA: Shift Left Arithmetic, fullword (rule R240). -/
def execSla (r1 x2 : RegNo) (i2 : Half) (s : State) : Outcome :=
  shiftFull shiftLeftArithmetic r1 (s.immediate x2 i2) s

/-- SRA: Shift Right Arithmetic, fullword (rule R241). -/
def execSra (r1 x2 : RegNo) (i2 : Half) (s : State) : Outcome :=
  shiftFull shiftRightArithmetic r1 (s.immediate x2 i2) s

/-- RLL: Rotate Left Logical (rule R242). -/
def execRll (r1 x2 : RegNo) (i2 : Half) (s : State) : Outcome := rotateFull BitVec.rotateLeft r1 (s.immediate x2 i2) s

/-- RRL: Rotate Right Logical (rule R243). -/
def execRrl (r1 x2 : RegNo) (i2 : Half) (s : State) : Outcome :=
  rotateFull BitVec.rotateRight r1 (s.immediate x2 i2) s

/-- SLQL: Shift Left Double Word Logical (rule R244). -/
def execSlql (r1 x2 : RegNo) (i2 : Half) (s : State) : Outcome :=
  shiftDouble shiftLeftLogical r1 (s.immediate x2 i2) s

/-- SRQL: Shift Right Double Word Logical (rule R245). -/
def execSrql (r1 x2 : RegNo) (i2 : Half) (s : State) : Outcome :=
  shiftDouble shiftRightLogical r1 (s.immediate x2 i2) s

/-- SLQA: Shift Left Double Word Arithmetic (rule R246). -/
def execSlqa (r1 x2 : RegNo) (i2 : Half) (s : State) : Outcome :=
  shiftDouble shiftLeftArithmetic r1 (s.immediate x2 i2) s

/-- SRQA: Shift Right Double Word Arithmetic (rule R247). -/
def execSrqa (r1 x2 : RegNo) (i2 : Half) (s : State) : Outcome :=
  shiftDouble shiftRightArithmetic r1 (s.immediate x2 i2) s

end Sys2Proof.Machine
end

