-- ==== Sys2Proof/Machine/System.lean ====
section
/-! DEFINITION. The system control instructions (47_system_control.md). -/

namespace Sys2Proof.Machine

/-- LPSW: Load Program Status Word; not advanced, the location counter is the one loaded (rule R310). -/
def execLpsw (r1 x2 : RegNo) (a2 : Half) (s : State) : Outcome :=
  s.privileged (require (decide (r1 = 0)) (.mustBeZero .R1) (requireEven (s.ea x2 a2)
    (s.loadPsw s.psw.OB (s.ea x2 a2) State.testQueue)))

/-- EPSR: Exchange Program Status; R1 is written before R2 is read (rule R311). -/
def execEpsr (r1 r2 : RegNo) (s : State) : Outcome :=
  let t := s.setReg r1 s.psw.status
  s.privileged ((t.setPsw (t.psw.withStatus (t.reg r2))).advance 2).testQueue

/-- SINT: Simulate Interrupt; the location counter stored is that of the next instruction (log 22), EI and AS are not
tested (log 47) (rule R312). -/
def execSint (r1 x2 : RegNo) (i2 : Half) (s : State) : Outcome :=
  s.privileged (require (decide (r1 = 0)) (.mustBeZero .R1)
    (s.serviceDevice (lowByte (s.immediate x2 i2)) (s.psw.LOC + 4)))

/-- SVC: Supervisor Call, the interrupt of 60_exceptions.md rule R411; the location counter stored is that of the next
instruction (log 22) (rule R313). -/
def execSvc (r1 x2 : RegNo) (i2 : Half) (s : State) : Outcome :=
  s.writeHalf 0 0x0094 (s.immediate x2 i2) fun t =>
    t.writeFull 0 0x0096 (s.psw.status ++ (s.psw.LOC + 4)) fun u =>
      u.readHalf 0 0x009a fun status v =>
        v.readHalf 0 (0x009c + (r1.setWidth 16 + r1.setWidth 16)) fun target w =>
          .next ((w.setPsw (w.psw.withStatus status)).jump target)

/-- EPOR: Exchange Operand Bank Address; R2 is ignored (rule R314). -/
def execEpor (r1 _r2 : RegNo) (s : State) : Outcome :=
  .next (((s.setPsw { s.psw with OB := (s.reg r1).extractLsb' 4 2 }).setReg r1 s.psw.status).advance 2)

/-- EPPR: Exchange Program Address; R2 is ignored, the location counter saved is that of the next instruction (log 22)
(rule R315). -/
def execEppr (r1 _r2 : RegNo) (s : State) : Outcome :=
  require (r1.ule 14) (.reservedRegister .R1)
    (.next (((s.setPsw { s.psw with
      IB := (s.reg r1).extractLsb' 6 2
      OB := (s.reg r1).extractLsb' 4 2
      LOC := s.reg (r1 + 1) }).setReg r1 s.psw.status).setReg (r1 + 1) (s.psw.LOC + 2)))

end Sys2Proof.Machine
end

