-- ==== Sys2Proof/Machine/TrigBounds.lean ====
section
/-! DEFINITION. The bounds of Table VI-3 on the trigonometric results (49_list_trig_augment.md rule R371), decided on
integers. Cosines and sines are computed with 96 fraction bits, far beyond the bounds. A bound admits every value the
table admits, and beyond it less than 2^-9 of a unit of the last place, the slack of the computation (log 17). -/

namespace Sys2Proof.Machine

/-- The Table VI-3 error of the results of COS and of the root of ATN (rule R371). -/
def cosineError : Cpr → Nat
  | .p16 => 0x8000
  | .p20 => 0x800
  | .p24 => 0x80
  | .p28 => 0x16

/-- The Table VI-3 error of the arc tangent. -/
def arcTangentError : Cpr → Nat
  | .p16 => 0x5000
  | .p20 => 0x500
  | .p24 => 0x50
  | .p28 => 0x13

/-- The Table VI-3 error of the root of a difference. -/
def differenceError : Cpr → Nat
  | .p16 => 0x8000
  | .p20 => 0x800
  | .p24 => 0x80
  | .p28 => 0x17

/-- The Table VI-3 error of the arc sine. -/
def arcSineError : Cpr → Nat
  | .p16 => 0xd000
  | .p20 => 0xd00
  | .p24 => 0xd0
  | .p28 => 0x2a

/-! ## Roots -/

/-- `|m - sqrt(q)| <= error`, on integers. -/
def withinRoot (m : Int) (q error : Nat) : Bool :=
  decide (0 ≤ m + error) && decide ((q : Int) ≤ (m + error) * (m + error)) &&
    (decide (m ≤ error) || decide ((m - error) * (m - error) ≤ (q : Int)))

/-- The integer part of a square root, bit by bit: `n` bits below `r`. -/
def rootBelow (q : Nat) : (n : Nat) → (r : Nat) → Nat
  | 0, r => r
  | n + 1, r => rootBelow q n (if (r + 2 ^ n) * (r + 2 ^ n) ≤ q then r + 2 ^ n else r)

/-- A candidate for a root, where it is a 32-bit number within the bound; else the root itself, at most X'7FFFFFFF'. -/
def boundedRoot (m : Int) (q error : Nat) : Full :=
  if withinRoot m q error && !outsideSigned 32 m then BitVec.ofInt 32 m
  else BitVec.ofNat 32 (min (rootBelow q 33 0) 0x7fffffff)

/-- x squared plus y squared, of signed scalars. -/
def sumOfSquares (x y : Full) : Nat := (x.toInt * x.toInt + y.toInt * y.toInt).toNat

/-- x squared less y squared, where |y| is at most |x|. -/
def differenceOfSquares (x y : Full) : Nat := (x.toInt * x.toInt - y.toInt * y.toInt).toNat

/-! ## Sines and cosines -/

/-- Pi in units of 2^-96, rounded down. -/
def piFixed : Nat := 0x3243f6a8885a308d313198a2e

/-- `1 - q/(k(k+1)) * (1 - q/((k+2)(k+3)) * ...)` with `n` factors, in units of 2^-96: from k = 1 the cosine series and
from k = 2 the sine series over its argument, `q` the square of the argument. -/
def seriesFrom (q : Nat) : (n : Nat) → (k : Nat) → Nat
  | 0, _ => 2 ^ 96
  | n + 1, k => 2 ^ 96 - q * seriesFrom q n (k + 2) / 2 ^ 96 / (k * (k + 1))

/-- An angle of the first quadrant, a BAMS number below 2^30, in units of 2^-96 radians. -/
def radians (r : Nat) : Nat := r * piFixed / 2 ^ 31

/-- The cosine of an angle of the first quadrant in units of 2^-96. -/
def quarterCosine (r : Nat) : Nat := seriesFrom (radians r * radians r / 2 ^ 96) 16 1

/-- The sine of an angle of the first quadrant in units of 2^-96, at most one. -/
def quarterSine (r : Nat) : Nat := min (radians r * seriesFrom (radians r * radians r / 2 ^ 96) 16 2 / 2 ^ 96) (2 ^ 96)

/-- The cosine of a BAMS angle (rule R371), any integer, in units of 2^-96. -/
def fixedCosine (angle : Int) : Int :=
  let u := (angle % 2 ^ 32).toNat
  let r := u % 2 ^ 30
  match u / 2 ^ 30 with
  | 0 => quarterCosine r
  | 1 => -(quarterSine r : Int)
  | 2 => -(quarterCosine r : Int)
  | _ => quarterSine r

/-- The sine, the cosine of three quarter turns more. -/
def fixedSine (angle : Int) : Int := fixedCosine (angle + 3 * 2 ^ 30)

/-- `|m - v| <= error` for a fixed scalar `m` (units of 2^-30) and `v` in units of 2^-96. -/
def withinFixed (m v : Int) (error : Nat) : Bool :=
  decide ((m - error) * 2 ^ 66 ≤ v + 2 ^ 16) && decide (v ≤ (m + error) * 2 ^ 66 + 2 ^ 16)

/-- The range of the fixed scalars, -1.0 to +1.0 inclusive (rule R371(a)), and of the angles of an arc sine, -90 to 90
degrees (rule R375): both are -2^30 to 2^30. -/
def inUnitRange (m : Int) : Bool := decide (-(2 ^ 30) ≤ m) && decide (m ≤ 2 ^ 30)

/-- A candidate for a fixed scalar, where it is one and within the bound; else the scalar nearest to `v`. -/
def boundedFixed (m v : Int) (error : Nat) : Full :=
  if withinFixed m v error && inUnitRange m then BitVec.ofInt 32 m else BitVec.ofInt 32 ((v + 2 ^ 65) / 2 ^ 66)

/-! ## Arc sine and arc tangent

The exact angle lies at or above a whole BAMS number and below the next. A result is within `error` of the exact angle
where it is no more than `error` above that number and no more than `error` below it, or below the next if the angle is
not whole. -/

/-- The greatest angle that a test admits, where the test holds at `a` and fails above some angle: `n` bits above `a`. -/
def angleBelow (p : Int → Bool) : (n : Nat) → (a : Int) → Int
  | 0, a => a
  | n + 1, a => angleBelow p n (if p (a + 2 ^ n) then a + 2 ^ n else a)

/-- The slack of the comparisons: less than 2^-8 of a unit of the last place of an angle (log 17). -/
def angleSlack : Int := 2 ^ 16

/-- `a <= arcsin(y / z)` in BAMS, z positive and |y| at most z. -/
def sineAtMost (y z a : Int) : Bool :=
  decide (a ≤ -(2 ^ 30)) || (decide (a ≤ 2 ^ 30) && decide (fixedSine a * z ≤ y * 2 ^ 96 + z * angleSlack))

/-- `arcsin(y / z) <= a`. -/
def sineAtLeast (y z a : Int) : Bool :=
  decide (2 ^ 30 ≤ a) || (decide (-(2 ^ 30) ≤ a) && decide (y * 2 ^ 96 ≤ fixedSine a * z + z * angleSlack))

/-- `a <= arctan(y / x)` in BAMS, x positive. -/
def tangentAtMost (y x a : Int) : Bool :=
  decide (a ≤ -(2 ^ 30)) ||
    (decide (a ≤ 2 ^ 30) && decide (fixedSine a * x ≤ y * fixedCosine a + (x + y.natAbs) * angleSlack))

/-- `arctan(y / x) <= a`. -/
def tangentAtLeast (y x a : Int) : Bool :=
  decide (2 ^ 30 ≤ a) ||
    (decide (-(2 ^ 30) ≤ a) && decide (y * fixedCosine a ≤ fixedSine a * x + (x + y.natAbs) * angleSlack))

/-- The whole part of the angle that a test `p` (the angle is at least so much) describes. -/
def wholeAngle (p : Int → Bool) : Int := angleBelow p 32 (-(2 ^ 30))

/-- `|a - angle| <= error`, the angle given by the tests of what is at most and at least it. -/
def withinAngle (atMost atLeast : Int → Bool) (a : Int) (error : Nat) : Bool :=
  let whole := wholeAngle atMost
  decide (a ≤ whole + error) && decide ((if atLeast whole then whole else whole + 1) ≤ a + error)

/-- A candidate for the arc sine, where it is within the bound and between -90 and 90 degrees (rule R375); else the
arc sine itself, its fraction dropped. -/
def boundedArcSine (a y z : Int) (error : Nat) : Full :=
  if withinAngle (sineAtMost y z) (sineAtLeast y z) a error && inUnitRange a then BitVec.ofInt 32 a
  else BitVec.ofInt 32 (wholeAngle (sineAtMost y z))

/-- 90 degrees with the sign of y, the arc tangent for x = 0 (log 50). -/
def rightAngle (y : Int) : Int := if y < 0 then -(2 ^ 30) else 2 ^ 30

/-- A candidate for the principal value of arctan(y/x), where it is within the bound; else that value, its fraction
dropped. -/
def boundedPrincipal (a y x : Int) (error : Nat) : Int :=
  if x = 0 then if (a - rightAngle y).natAbs ≤ error then a else rightAngle y
  else
    let y' := if x < 0 then -y else y
    let x' : Int := x.natAbs
    if withinAngle (tangentAtMost y' x') (tangentAtLeast y' x') a error then a else wholeAngle (tangentAtMost y' x')

/-- The arc tangent: the principal value, or, resolved to the quadrant of (x, y), half a turn from it for a negative x
(ATN_QUADRANT, rule R377). -/
def boundedArcTangent (quadrant : Config.Quadrant) (a y x : Int) (error : Nat) : Full :=
  let principal := boundedPrincipal a y x error
  match quadrant with
  | .resolved => BitVec.ofInt 32 (if x < 0 then principal + 2 ^ 31 else principal)
  | .principal => BitVec.ofInt 32 principal

end Sys2Proof.Machine
end

