-- ==== Sys2Proof/Machine/Trig.lean ====
section
/-! DEFINITION. The trigonometric option (49_list_trig_augment.md rules R370 to R380). No operation code of the nine
survives (rule R370): these meanings are reached through `exec` alone. The numerical results are opaque functions of
Config held to the bounds of Table VI-3 (log 17). -/

namespace Sys2Proof.Machine

/-- Whether `cordic_atn` reports overflow (rule R377): it does where the root exceeds X'7FFFFFFF' by more than the
error, it may where the root is within the error of X'7FFFFFFF'. -/
def arcTangentOverflows (x y : Full) (p : Cpr) : Bool :=
  let limit : Int := 0x7fffffff
  let error : Int := cosineError p
  let q : Int := sumOfSquares x y
  decide ((limit + error) * (limit + error) < q) ||
    (decide ((limit - error) * (limit - error) ≤ q) && Config.cordicOverflow x y p.toNat)

/-- V as stated; C, G and L are UNDEF (rules R375, R377, R379, log 41). -/
def State.setTrigCC (s : State) (v : Bool) : State :=
  (s.setCC { C := s.undef 0, V := v, G := s.undef 1, L := s.undef 2 }).drew 3

/-- The cosine to R1, R1+1 and the sine to R1+2, R1+3 (rule R373). -/
def cosine (r1 : RegNo) (angle : Full) (len : Half) (s : State) : Outcome :=
  let r := Config.cordicCos angle s.cpr.toNat
  let e := cosineError s.cpr
  .next (((s.setPair r1 (boundedFixed r.1 (fixedCosine angle.toNat) e)).setPair (r1 + 2)
    (boundedFixed r.2 (fixedSine angle.toNat) e)).advance len)

/-- The arc sine of y/z to R1, R1+1 (rule R375). -/
def arcSine (r1 : RegNo) (z y : Full) (len : Half) (s : State) : Outcome :=
  if z.toInt.natAbs < y.toInt.natAbs ∨ (z = 0 ∧ y = 0) then .next ((s.setTrigCC true).advance len)
  else .next (((s.setPair r1 (boundedArcSine (Config.cordicAsn z y s.cpr.toNat) y.toInt z.toInt.natAbs
    (arcSineError s.cpr))).setTrigCC false).advance len)

/-- The arc tangent of y/x to R1, R1+1 and the root of the sum of the squares to R1+2, R1+3 (rule R377). -/
def arcTangent (r1 : RegNo) (x y : Full) (len : Half) (s : State) : Outcome :=
  if x = 0 ∧ y = 0 then .next ((((s.setPair r1 0).setPair (r1 + 2) 0).setTrigCC false).advance len)
  else if arcTangentOverflows x y s.cpr then .next ((s.setTrigCC true).advance len)
  else .next ((((s.setPair r1 (boundedArcTangent s.install.quadrant (Config.cordicAtn x y s.cpr.toNat) y.toInt
    x.toInt (arcTangentError s.cpr))).setPair (r1 + 2) (boundedRoot (Config.cordicMagnitude x y s.cpr.toNat)
    (sumOfSquares x y) (cosineError s.cpr))).setTrigCC false).advance len)

/-- The root of the difference of the squares to R1, R1+1 (rule R379). -/
def rootOfDifference (r1 : RegNo) (x y : Full) (len : Half) (s : State) : Outcome :=
  if x.toInt.natAbs < y.toInt.natAbs then .next ((s.setTrigCC true).advance len)
  else if x = y then .next (((s.setPair r1 0).setTrigCC false).advance len)
  else .next (((s.setPair r1 (boundedRoot (Config.cordicSqd x y s.cpr.toNat) (differenceOfSquares x y)
    (differenceError s.cpr))).setTrigCC false).advance len)

/-- Two fullwords of memory at `EA` and `EA + 4` (rules R376, R378, R380). -/
def State.withScalars (s : State) (x2 : RegNo) (a2 : Half) (k : Full → Full → State → Outcome) : Outcome :=
  let a := s.ea x2 a2
  requireEven a (s.readFull s.psw.OB a fun first t => t.readFull s.psw.OB (a + 4) fun second => k first second)

/-- R2 must be even and name four registers (30_encoding.md rule R98). -/
def requireQuadR2 (r2 : RegNo) (k : Outcome) : Outcome :=
  require (isEven r2 && r2.ule 12) (.reservedRegister .R2) k

/-- ECPR: Exchange CORDIC Precision Register; R2 is read before R1 is written (rule R372). -/
def execEcpr (r1 r2 : RegNo) (s : State) : Outcome :=
  .next (({ s with cpr := Cpr.ofBits ((s.reg r2).extractLsb' 2 2) }.setReg r1
    (BitVec.ofNat 16 s.cpr.toNat)).advance 2)

/-- COSR: Cosine/Sine Register (rule R373). -/
def execCosr (r1 r2 : RegNo) (s : State) : Outcome :=
  requireQuad r1 (require (isEven r2) (.reservedRegister .R2) (cosine r1 (s.pair r2) 2 s))

/-- COS: Cosine/Sine (rule R374). -/
def execCos (r1 x2 : RegNo) (a2 : Half) (s : State) : Outcome :=
  requireQuad r1 (s.fullOperand x2 a2 fun angle => cosine r1 angle 4)

/-- ASNR: Arc Sine Register (rule R375). -/
def execAsnr (r1 r2 : RegNo) (s : State) : Outcome :=
  requireR1Even r1 (requireQuadR2 r2 (arcSine r1 (s.pair r2) (s.pair (r2 + 2)) 2 s))

/-- ASN: Arc Sine (rule R376). -/
def execAsn (r1 x2 : RegNo) (a2 : Half) (s : State) : Outcome :=
  requireR1Even r1 (s.withScalars x2 a2 fun z y => arcSine r1 z y 4)

/-- ATNR: Arc Tan Register (rule R377). -/
def execAtnr (r1 r2 : RegNo) (s : State) : Outcome :=
  requireQuad r1 (requireQuadR2 r2 (arcTangent r1 (s.pair r2) (s.pair (r2 + 2)) 2 s))

/-- ATN: Arc Tan (rule R378). -/
def execAtn (r1 x2 : RegNo) (a2 : Half) (s : State) : Outcome :=
  requireQuad r1 (s.withScalars x2 a2 fun x y => arcTangent r1 x y 4)

/-- SQDR: Square Root of Difference Register (rule R379). -/
def execSqdr (r1 r2 : RegNo) (s : State) : Outcome :=
  requireR1Even r1 (requireQuadR2 r2 (rootOfDifference r1 (s.pair r2) (s.pair (r2 + 2)) 2 s))

/-- SQD: Square Root of Difference (rule R380). -/
def execSqd (r1 x2 : RegNo) (a2 : Half) (s : State) : Outcome :=
  requireR1Even r1 (s.withScalars x2 a2 fun x y => rootOfDifference r1 x y 4)

end Sys2Proof.Machine
end

