-- ==== Sys2Proof/Syntax.lean ====
section
/-! DEFINITION. The instructions of the HMP-1116: one constructor per row of spec/opcode_table.json, with the
instruction-word fields of Figure 2-34 (30_encoding.md rules R90, R91). The field names are the manual's: R1, R2, X2 name
registers, M1 is a branch mask, N a 4-bit datum, A2 an address, I2 an immediate. -/

namespace Sys2Proof

/-- An instruction with its fields. Every field value of the instruction word is a term; which field values have a
meaning is `WellFormed` (rules R98, R99). -/
inductive Instr where
  -- Fixed-point load and store (40_load_store.md)
  /-- LIS, Load Immediate Short (R121). -/
  | lis (r1 n : RegNo)
  /-- LCS, Load Complement Short (R122). -/
  | lcs (r1 n : RegNo)
  /-- LHR, Load Halfword Register (R123). -/
  | lhr (r1 r2 : RegNo)
  /-- LH, Load Halfword (R124). -/
  | lh (r1 x2 : RegNo) (a2 : Half)
  /-- LHI, Load Halfword Immediate (R125). -/
  | lhi (r1 x2 : RegNo) (i2 : Half)
  /-- LDPR, Load Fullword Register (R126). -/
  | ldpr (r1 r2 : RegNo)
  /-- LDP, Load Fullword (R127). -/
  | ldp (r1 x2 : RegNo) (a2 : Half)
  /-- LH0, Load From Bank 0 (R128). -/
  | lh0 (r1 x2 : RegNo) (a2 : Half)
  /-- LH1, Load From Bank 1 (R129). -/
  | lh1 (r1 x2 : RegNo) (a2 : Half)
  /-- LH2, Load From Bank 2 (R130). -/
  | lh2 (r1 x2 : RegNo) (a2 : Half)
  /-- LH3, Load From Bank 3 (R131). -/
  | lh3 (r1 x2 : RegNo) (a2 : Half)
  /-- LM, Load Multiple (R132). -/
  | lm (r1 x2 : RegNo) (a2 : Half)
  /-- STM, Store Multiple (R133). -/
  | stm (r1 x2 : RegNo) (a2 : Half)
  /-- STH, Store Halfword (R134). -/
  | sth (r1 x2 : RegNo) (a2 : Half)
  /-- STH0, Store in Bank 0 (R135). -/
  | sth0 (r1 x2 : RegNo) (a2 : Half)
  /-- STH1, Store in Bank 1 (R136). -/
  | sth1 (r1 x2 : RegNo) (a2 : Half)
  /-- STH2, Store in Bank 2 (R137). -/
  | sth2 (r1 x2 : RegNo) (a2 : Half)
  /-- STH3, Store in Bank 3 (R138). -/
  | sth3 (r1 x2 : RegNo) (a2 : Half)
  /-- STDP, Store Fullword (R139). -/
  | stdp (r1 x2 : RegNo) (a2 : Half)
  -- Fixed-point arithmetic (41_arithmetic.md)
  /-- AIS, Add Immediate Short (R152). -/
  | ais (r1 n : RegNo)
  /-- AHR, Add Halfword Register (R153). -/
  | ahr (r1 r2 : RegNo)
  /-- AH, Add Halfword (R154). -/
  | ah (r1 x2 : RegNo) (a2 : Half)
  /-- AHI, Add Halfword Immediate (R155). -/
  | ahi (r1 x2 : RegNo) (i2 : Half)
  /-- AHM, Add Halfword to Memory (R156). -/
  | ahm (r1 x2 : RegNo) (a2 : Half)
  /-- ACHR, Add With Carry Halfword Register (R157). -/
  | achr (r1 r2 : RegNo)
  /-- ACH, Add With Carry Halfword (R158). -/
  | ach (r1 x2 : RegNo) (a2 : Half)
  /-- ADPR, Add Fullword Register (R159). -/
  | adpr (r1 r2 : RegNo)
  /-- ADP, Add Fullword (R160). -/
  | adp (r1 x2 : RegNo) (a2 : Half)
  /-- SIS, Subtract Immediate Short (R161). -/
  | sis (r1 n : RegNo)
  /-- SHR, Subtract Halfword Register (R162). -/
  | shr (r1 r2 : RegNo)
  /-- SH, Subtract Halfword (R163). -/
  | sh (r1 x2 : RegNo) (a2 : Half)
  /-- SHI, Subtract Halfword Immediate (R164). -/
  | shi (r1 x2 : RegNo) (i2 : Half)
  /-- SCHR, Subtract With Carry Halfword Register (R165). -/
  | schr (r1 r2 : RegNo)
  /-- SCH, Subtract With Carry Halfword (R166). -/
  | sch (r1 x2 : RegNo) (a2 : Half)
  /-- SDPR, Subtract Fullword Register (R167). -/
  | sdpr (r1 r2 : RegNo)
  /-- SDP, Subtract Fullword (R168). -/
  | sdp (r1 x2 : RegNo) (a2 : Half)
  /-- MHR, Multiply Halfword Register (R170). -/
  | mhr (r1 r2 : RegNo)
  /-- MH, Multiply Halfword (R171). -/
  | mh (r1 x2 : RegNo) (a2 : Half)
  /-- MHUR, Multiply Halfword Unsigned Register (R172). -/
  | mhur (r1 r2 : RegNo)
  /-- MHU, Multiply Halfword Unsigned (R173). -/
  | mhu (r1 x2 : RegNo) (a2 : Half)
  /-- MDPR, Multiply Fullword Register (R174). -/
  | mdpr (r1 r2 : RegNo)
  /-- MDP, Multiply Fullword (R175). -/
  | mdp (r1 x2 : RegNo) (a2 : Half)
  /-- DHR, Divide Halfword Register (R177). -/
  | dhr (r1 r2 : RegNo)
  /-- DH, Divide Halfword (R178). -/
  | dh (r1 x2 : RegNo) (a2 : Half)
  /-- DDPR, Divide Fullword Register (R179). -/
  | ddpr (r1 r2 : RegNo)
  /-- DDP, Divide Fullword (R180). -/
  | ddp (r1 x2 : RegNo) (a2 : Half)
  -- Logical and compare (42_logical_compare.md)
  /-- NHR, AND Halfword Register (R191). -/
  | nhr (r1 r2 : RegNo)
  /-- NH, AND Halfword (R192). -/
  | nh (r1 x2 : RegNo) (a2 : Half)
  /-- NHI, AND Halfword Immediate (R193). -/
  | nhi (r1 x2 : RegNo) (i2 : Half)
  /-- OHR, OR Halfword Register (R194). -/
  | ohr (r1 r2 : RegNo)
  /-- OH, OR Halfword (R195). -/
  | oh (r1 x2 : RegNo) (a2 : Half)
  /-- OHI, OR Halfword Immediate (R196). -/
  | ohi (r1 x2 : RegNo) (i2 : Half)
  /-- XHR, Exclusive OR Halfword Register (R197). -/
  | xhr (r1 r2 : RegNo)
  /-- XH, Exclusive OR Halfword (R198). -/
  | xh (r1 x2 : RegNo) (a2 : Half)
  /-- XHI, Exclusive OR Halfword Immediate (R199). -/
  | xhi (r1 x2 : RegNo) (i2 : Half)
  /-- THI, Test Halfword Immediate (R200). -/
  | thi (r1 x2 : RegNo) (i2 : Half)
  /-- CLHR, Compare Logical Halfword Register (R203). -/
  | clhr (r1 r2 : RegNo)
  /-- CLH, Compare Logical Halfword (R204). -/
  | clh (r1 x2 : RegNo) (a2 : Half)
  /-- CLHI, Compare Logical Halfword Immediate (R205). -/
  | clhi (r1 x2 : RegNo) (i2 : Half)
  /-- CLDPR, Compare Logical Fullword Register (R206). -/
  | cldpr (r1 r2 : RegNo)
  /-- CLDP, Compare Logical Fullword (R207). -/
  | cldp (r1 x2 : RegNo) (a2 : Half)
  /-- CHR, Compare Halfword Register (R208). -/
  | chr (r1 r2 : RegNo)
  /-- CH, Compare Halfword (R209). -/
  | ch (r1 x2 : RegNo) (a2 : Half)
  /-- CHI, Compare Halfword Immediate (R210). -/
  | chi (r1 x2 : RegNo) (i2 : Half)
  /-- CDPR, Compare Fullword Register (R211). -/
  | cdpr (r1 r2 : RegNo)
  /-- CDP, Compare Fullword (R212). -/
  | cdp (r1 x2 : RegNo) (a2 : Half)
  -- Byte handling (43_byte_handling.md)
  /-- LBR, Load Byte Register (R220). -/
  | lbr (r1 r2 : RegNo)
  /-- LB, Load Byte (R221). -/
  | lb (r1 x2 : RegNo) (a2 : Half)
  /-- STBR, Store Byte Register (R222). -/
  | stbr (r1 r2 : RegNo)
  /-- STB, Store Byte (R223). -/
  | stb (r1 x2 : RegNo) (a2 : Half)
  /-- EXBR, Exchange Byte Register (R224). -/
  | exbr (r1 r2 : RegNo)
  /-- CLB, Compare Logical Byte (R225). -/
  | clb (r1 x2 : RegNo) (a2 : Half)
  -- Shift and rotate (44_shift_rotate.md)
  /-- SLLS, Shift Left Logical Short (R232). -/
  | slls (r1 n : RegNo)
  /-- SLHL, Shift Left Halfword Logical (R233). -/
  | slhl (r1 x2 : RegNo) (i2 : Half)
  /-- SRLS, Shift Right Logical Short (R234). -/
  | srls (r1 n : RegNo)
  /-- SRHL, Shift Right Halfword Logical (R235). -/
  | srhl (r1 x2 : RegNo) (i2 : Half)
  /-- SLHA, Shift Left Halfword Arithmetic (R236). -/
  | slha (r1 x2 : RegNo) (i2 : Half)
  /-- SRHA, Shift Right Halfword Arithmetic (R237). -/
  | srha (r1 x2 : RegNo) (i2 : Half)
  /-- SLL, Shift Left Logical (fullword) (R238). -/
  | sll (r1 x2 : RegNo) (i2 : Half)
  /-- SRL, Shift Right Logical (fullword) (R239). -/
  | srl (r1 x2 : RegNo) (i2 : Half)
  /-- SLA, Shift Left Arithmetic (fullword) (R240). -/
  | sla (r1 x2 : RegNo) (i2 : Half)
  /-- SRA, Shift Right Arithmetic (fullword) (R241). -/
  | sra (r1 x2 : RegNo) (i2 : Half)
  /-- RLL, Rotate Left Logical (R242). -/
  | rll (r1 x2 : RegNo) (i2 : Half)
  /-- RRL, Rotate Right Logical (R243). -/
  | rrl (r1 x2 : RegNo) (i2 : Half)
  /-- SLQL, Shift Left Double Word Logical (R244). -/
  | slql (r1 x2 : RegNo) (i2 : Half)
  /-- SRQL, Shift Right Double Word Logical (R245). -/
  | srql (r1 x2 : RegNo) (i2 : Half)
  /-- SLQA, Shift Left Double Word Arithmetic (R246). -/
  | slqa (r1 x2 : RegNo) (i2 : Half)
  /-- SRQA, Shift Right Double Word Arithmetic (R247). -/
  | srqa (r1 x2 : RegNo) (i2 : Half)
  -- Branch (45_branch.md)
  /-- BTCR, Branch on True Condition Register (R262). -/
  | btcr (m1 r2 : RegNo)
  /-- BTC, Branch on True Condition (R263). -/
  | btc (m1 x2 : RegNo) (a2 : Half)
  /-- BFCR, Branch on False Condition Register (R264). -/
  | bfcr (m1 r2 : RegNo)
  /-- BFC, Branch on False Condition (R265). -/
  | bfc (m1 x2 : RegNo) (a2 : Half)
  /-- BTBS, Branch on True Backward Short (R266). -/
  | btbs (m1 n : RegNo)
  /-- BTFS, Branch on True Forward Short (R267). -/
  | btfs (m1 n : RegNo)
  /-- BFBS, Branch on False Backward Short (R268). -/
  | bfbs (m1 n : RegNo)
  /-- BFFS, Branch on False Forward Short (R269). -/
  | bffs (m1 n : RegNo)
  /-- BXH, Branch on Index High (R270). -/
  | bxh (r1 x2 : RegNo) (a2 : Half)
  /-- BXLE, Branch on Index Low or Equal (R271). -/
  | bxle (r1 x2 : RegNo) (a2 : Half)
  /-- BALR, Branch and Link Register (R272). -/
  | balr (r1 r2 : RegNo)
  /-- BAL, Branch and Link (R273). -/
  | bal (r1 x2 : RegNo) (a2 : Half)
  -- Floating point, and the no-op codes of the 48-bit format (46_floating_point.md)
  /-- LER, Floating-Point Load Register (R287). -/
  | ler (r1 r2 : RegNo)
  /-- LE, Floating-Point Load (R288). -/
  | le (r1 x2 : RegNo) (a2 : Half)
  /-- STE, Floating-Point Store (R289). -/
  | ste (r1 x2 : RegNo) (a2 : Half)
  /-- AER, Floating-Point Add Register (R290). -/
  | aer (r1 r2 : RegNo)
  /-- AE, Floating-Point Add (R291). -/
  | ae (r1 x2 : RegNo) (a2 : Half)
  /-- SER, Floating-Point Subtract Register (R292). -/
  | ser (r1 r2 : RegNo)
  /-- SE, Floating-Point Subtract (R293). -/
  | se (r1 x2 : RegNo) (a2 : Half)
  /-- CER, Floating-Point Compare Register (R294). -/
  | cer (r1 r2 : RegNo)
  /-- CE, Floating-Point Compare (R295). -/
  | ce (r1 x2 : RegNo) (a2 : Half)
  /-- MER, Floating-Point Multiply Register (R296). -/
  | mer (r1 r2 : RegNo)
  /-- ME, Floating-Point Multiply (R297). -/
  | me (r1 x2 : RegNo) (a2 : Half)
  /-- DER, Floating-Point Divide Register (R298). -/
  | der (r1 r2 : RegNo)
  /-- DE, Floating-Point Divide (R299). -/
  | de (r1 x2 : RegNo) (a2 : Half)
  /-- LFR, unimplemented 48-bit floating point, no-op (R301). -/
  | lfr (r1 r2 : RegNo)
  /-- CFR, unimplemented 48-bit floating point, no-op (R301). -/
  | cfr (r1 r2 : RegNo)
  /-- AFR, unimplemented 48-bit floating point, no-op (R301). -/
  | afr (r1 r2 : RegNo)
  /-- SFR, unimplemented 48-bit floating point, no-op (R301). -/
  | sfr (r1 r2 : RegNo)
  /-- MFR, unimplemented 48-bit floating point, no-op (R301). -/
  | mfr (r1 r2 : RegNo)
  /-- DFR, unimplemented 48-bit floating point, no-op (R301). -/
  | dfr (r1 r2 : RegNo)
  /-- STF, unimplemented 48-bit floating point, no-op (R301). -/
  | stf (r1 x2 : RegNo) (a2 : Half)
  /-- LF, unimplemented 48-bit floating point, no-op (R301). -/
  | lf (r1 x2 : RegNo) (a2 : Half)
  /-- CF, unimplemented 48-bit floating point, no-op (R301). -/
  | cf (r1 x2 : RegNo) (a2 : Half)
  /-- AF, unimplemented 48-bit floating point, no-op (R301). -/
  | af (r1 x2 : RegNo) (a2 : Half)
  /-- SF, unimplemented 48-bit floating point, no-op (R301). -/
  | sf (r1 x2 : RegNo) (a2 : Half)
  /-- MF, unimplemented 48-bit floating point, no-op (R301). -/
  | mf (r1 x2 : RegNo) (a2 : Half)
  /-- DF, unimplemented 48-bit floating point, no-op (R301). -/
  | df (r1 x2 : RegNo) (a2 : Half)
  -- System control (47_system_control.md)
  /-- LPSW, Load Program Status Word (R310). -/
  | lpsw (r1 x2 : RegNo) (a2 : Half)
  /-- EPSR, Exchange Program Status (R311). -/
  | epsr (r1 r2 : RegNo)
  /-- SINT, Simulate Interrupt (R312). -/
  | sint (r1 x2 : RegNo) (i2 : Half)
  /-- SVC, Supervisor Call (R313). -/
  | svc (r1 x2 : RegNo) (i2 : Half)
  /-- EPOR, Exchange Operand Bank Address (R314). -/
  | epor (r1 r2 : RegNo)
  /-- EPPR, Exchange Program Address (R315). -/
  | eppr (r1 r2 : RegNo)
  -- Input/output (48_input_output.md)
  /-- AIR, Acknowledge Interrupt Register (R334). -/
  | air (r1 r2 : RegNo)
  /-- AI, Acknowledge Interrupt (R335). -/
  | ai (r1 x2 : RegNo) (a2 : Half)
  /-- SSR, Sense Status Register (R336). -/
  | ssr (r1 r2 : RegNo)
  /-- SS, Sense Status (R337). -/
  | ss (r1 x2 : RegNo) (a2 : Half)
  /-- OCR, Output Command Register (R338). -/
  | ocr (r1 r2 : RegNo)
  /-- OC, Output Command (R339). -/
  | oc (r1 x2 : RegNo) (a2 : Half)
  /-- RDR, Read Data Register (R340). -/
  | rdr (r1 r2 : RegNo)
  /-- RD, Read Data (R341). -/
  | rd (r1 x2 : RegNo) (a2 : Half)
  /-- WDR, Write Data Register (R342). -/
  | wdr (r1 r2 : RegNo)
  /-- WD, Write Data (R343). -/
  | wd (r1 x2 : RegNo) (a2 : Half)
  /-- RHR, Read Halfword Register (R344). -/
  | rhr (r1 r2 : RegNo)
  /-- RH, Read Halfword (R345). -/
  | rh (r1 x2 : RegNo) (a2 : Half)
  /-- WHR, Write Halfword Register (R346). -/
  | whr (r1 r2 : RegNo)
  /-- WH, Write Halfword (R347). -/
  | wh (r1 x2 : RegNo) (a2 : Half)
  /-- RBR, Read Block Register (R349). -/
  | rbr (r1 r2 : RegNo)
  /-- RB, Read Block (R350). -/
  | rb (r1 x2 : RegNo) (a2 : Half)
  /-- WBR, Write Block Register (R351). -/
  | wbr (r1 r2 : RegNo)
  /-- WB, Write Block (R352). -/
  | wb (r1 x2 : RegNo) (a2 : Half)
  /-- AL, Autoload (R353). -/
  | al (r1 x2 : RegNo) (a2 : Half)
  -- List processing, trigonometric option, augment set (49_list_trig_augment.md)
  /-- ATL, Add to Top of List (R361). -/
  | atl (r1 x2 : RegNo) (a2 : Half)
  /-- ABL, Add to Bottom of List (R362). -/
  | abl (r1 x2 : RegNo) (a2 : Half)
  /-- RTL, Remove from Top of List (R363). -/
  | rtl (r1 x2 : RegNo) (a2 : Half)
  /-- RBL, Remove from Bottom of List (R364). -/
  | rbl (r1 x2 : RegNo) (a2 : Half)
  /-- ECPR, Exchange CORDIC Precision Register (R372). -/
  | ecpr (r1 r2 : RegNo)
  /-- COSR, Cosine/Sine Register (R373). -/
  | cosr (r1 r2 : RegNo)
  /-- COS, Cosine/Sine (R374). -/
  | cos (r1 x2 : RegNo) (a2 : Half)
  /-- ASNR, Arc Sine Register (R375). -/
  | asnr (r1 r2 : RegNo)
  /-- ASN, Arc Sine (R376). -/
  | asn (r1 x2 : RegNo) (a2 : Half)
  /-- ATNR, Arc Tan Register (R377). -/
  | atnr (r1 r2 : RegNo)
  /-- ATN, Arc Tan (R378). -/
  | atn (r1 x2 : RegNo) (a2 : Half)
  /-- SQDR, Square Root of Difference Register (R379). -/
  | sqdr (r1 r2 : RegNo)
  /-- SQD, Square Root of Difference (R380). -/
  | sqd (r1 x2 : RegNo) (a2 : Half)
  /-- SESB, Set Status Bits (R381). -/
  | sesb (r1 x2 : RegNo) (i2 : Half)
  /-- RESB, Reset Status Bits (R382). -/
  | resb (r1 x2 : RegNo) (i2 : Half)
  /-- LCHR, Load Complement Halfword Register (R383). -/
  | lchr (r1 r2 : RegNo)
  /-- LCH, Load Complement Halfword (R384). -/
  | lch (r1 x2 : RegNo) (a2 : Half)
  /-- LCNHR, Load and Change Number Base Halfword Register (R385). -/
  | lcnhr (r1 r2 : RegNo)
  /-- LCNH, Load and Change Number Base Halfword (R386). -/
  | lcnh (r1 x2 : RegNo) (a2 : Half)
  /-- LAVR, Load Absolute Value Halfword Register (R387). -/
  | lavr (r1 r2 : RegNo)
  /-- LAV, Load Absolute Value Halfword (R388). -/
  | lav (r1 x2 : RegNo) (a2 : Half)
deriving DecidableEq, Repr

end Sys2Proof
end

