-- ==== Sys2Proof/WellFormed.lean ====
section
/-! DEFINITION. Which instructions have fields the manual gives a meaning to: the register restrictions of
30_encoding.md rule R98 (with rule R315 for EPPR) and the must-be-zero fields of rule R99. A field that breaks one is
`UNSPECIFIED`: it decodes, and its meaning refuses it by name (00_scope.md rule R9). -/

namespace Sys2Proof

/-- A restriction an instruction's fields break, by name. -/
inductive Violation where
  /-- R1 must be even. -/
  | oddR1
  /-- R2 must be even. -/
  | oddR2
  /-- R1 names more registers than there are. -/
  | r1TooHigh
  /-- R2 names more registers than there are. -/
  | r2TooHigh
  /-- R1 must be zero. -/
  | r1NotZero
  /-- X2 must be zero. -/
  | x2NotZero
deriving DecidableEq, Repr

namespace Violation

/-- The check that R1 is even. -/
def ofOddR1 (r : RegNo) : List Violation := if r.getLsbD 0 then [.oddR1] else []

/-- The check that R2 is even. -/
def ofOddR2 (r : RegNo) : List Violation := if r.getLsbD 0 then [.oddR2] else []

/-- The check that R1 is at most `n`. -/
def ofR1Above (n : Nat) (r : RegNo) : List Violation := if r.toNat ≤ n then [] else [.r1TooHigh]

/-- The check that R2 is at most `n`. -/
def ofR2Above (n : Nat) (r : RegNo) : List Violation := if r.toNat ≤ n then [] else [.r2TooHigh]

/-- The check that R1 is zero. -/
def ofR1NotZero (r : RegNo) : List Violation := if r = 0 then [] else [.r1NotZero]

/-- The check that X2 is zero. -/
def ofX2NotZero (r : RegNo) : List Violation := if r = 0 then [] else [.x2NotZero]

end Violation

open Violation in
/-- Every restriction an instruction breaks. -/
def Instr.violations (i : Instr) : List Violation :=
  match i with
  -- R1 names a pair or a floating-point register (R98)
  | .ldp r1 _ _ => ofOddR1 r1
  | .stdp r1 _ _ => ofOddR1 r1
  | .adp r1 _ _ => ofOddR1 r1
  | .sdp r1 _ _ => ofOddR1 r1
  | .cdp r1 _ _ => ofOddR1 r1
  | .cldp r1 _ _ => ofOddR1 r1
  | .mhr r1 _ => ofOddR1 r1
  | .mh r1 _ _ => ofOddR1 r1
  | .mhur r1 _ => ofOddR1 r1
  | .mhu r1 _ _ => ofOddR1 r1
  | .dhr r1 _ => ofOddR1 r1
  | .dh r1 _ _ => ofOddR1 r1
  | .sll r1 _ _ => ofOddR1 r1
  | .srl r1 _ _ => ofOddR1 r1
  | .rll r1 _ _ => ofOddR1 r1
  | .rrl r1 _ _ => ofOddR1 r1
  | .sla r1 _ _ => ofOddR1 r1
  | .sra r1 _ _ => ofOddR1 r1
  | .le r1 _ _ => ofOddR1 r1
  | .ste r1 _ _ => ofOddR1 r1
  | .ae r1 _ _ => ofOddR1 r1
  | .se r1 _ _ => ofOddR1 r1
  | .ce r1 _ _ => ofOddR1 r1
  | .me r1 _ _ => ofOddR1 r1
  | .de r1 _ _ => ofOddR1 r1
  | .asn r1 _ _ => ofOddR1 r1
  | .sqd r1 _ _ => ofOddR1 r1
  -- R1 and R2 both name a pair or a floating-point register (R98)
  | .ldpr r1 r2 => ofOddR1 r1 ++ ofOddR2 r2
  | .adpr r1 r2 => ofOddR1 r1 ++ ofOddR2 r2
  | .sdpr r1 r2 => ofOddR1 r1 ++ ofOddR2 r2
  | .cdpr r1 r2 => ofOddR1 r1 ++ ofOddR2 r2
  | .cldpr r1 r2 => ofOddR1 r1 ++ ofOddR2 r2
  | .ler r1 r2 => ofOddR1 r1 ++ ofOddR2 r2
  | .aer r1 r2 => ofOddR1 r1 ++ ofOddR2 r2
  | .ser r1 r2 => ofOddR1 r1 ++ ofOddR2 r2
  | .cer r1 r2 => ofOddR1 r1 ++ ofOddR2 r2
  | .mer r1 r2 => ofOddR1 r1 ++ ofOddR2 r2
  | .der r1 r2 => ofOddR1 r1 ++ ofOddR2 r2
  -- R1 names four registers (R98)
  | .mdp r1 _ _ => ofOddR1 r1 ++ ofR1Above 12 r1
  | .ddp r1 _ _ => ofOddR1 r1 ++ ofR1Above 12 r1
  | .slql r1 _ _ => ofOddR1 r1 ++ ofR1Above 12 r1
  | .srql r1 _ _ => ofOddR1 r1 ++ ofR1Above 12 r1
  | .slqa r1 _ _ => ofOddR1 r1 ++ ofR1Above 12 r1
  | .srqa r1 _ _ => ofOddR1 r1 ++ ofR1Above 12 r1
  | .cos r1 _ _ => ofOddR1 r1 ++ ofR1Above 12 r1
  | .atn r1 _ _ => ofOddR1 r1 ++ ofR1Above 12 r1
  -- R1 names four registers, R2 a pair (R98)
  | .mdpr r1 r2 => ofOddR1 r1 ++ ofR1Above 12 r1 ++ ofOddR2 r2
  | .ddpr r1 r2 => ofOddR1 r1 ++ ofR1Above 12 r1 ++ ofOddR2 r2
  | .cosr r1 r2 => ofOddR1 r1 ++ ofR1Above 12 r1 ++ ofOddR2 r2
  -- R1 names a pair, R2 four registers (R98)
  | .asnr r1 r2 => ofOddR1 r1 ++ ofOddR2 r2 ++ ofR2Above 12 r2
  | .sqdr r1 r2 => ofOddR1 r1 ++ ofOddR2 r2 ++ ofR2Above 12 r2
  -- R1 and R2 name four registers each (R98)
  | .atnr r1 r2 => ofOddR1 r1 ++ ofR1Above 12 r1 ++ ofOddR2 r2 ++ ofR2Above 12 r2
  -- R1 names three registers (R98)
  | .bxh r1 _ _ => ofR1Above 13 r1
  | .bxle r1 _ _ => ofR1Above 13 r1
  -- R1 + 1 must exist (R315)
  | .eppr r1 _ => ofR1Above 14 r1
  -- R2 + 1 must exist (R98)
  | .rbr _ r2 => ofR2Above 14 r2
  | .wbr _ r2 => ofR2Above 14 r2
  -- R1 must be zero (R99)
  | .lpsw r1 _ _ => ofR1NotZero r1
  | .sint r1 _ _ => ofR1NotZero r1
  | .al r1 _ _ => ofR1NotZero r1
  -- R1 and X2 must be zero (R99)
  | .sesb r1 x2 _ => ofR1NotZero r1 ++ ofX2NotZero x2
  | .resb r1 x2 _ => ofR1NotZero r1 ++ ofX2NotZero x2
  -- no restriction
  | .balr _ _ | .btcr _ _ | .bfcr _ _ | .nhr _ _ | .clhr _ _ | .ohr _ _ | .xhr _ _ | .lhr _ _ | .chr _ _
  | .ahr _ _ | .shr _ _ | .achr _ _ | .schr _ _ | .lcnhr _ _ | .lavr _ _ | .lchr _ _ | .btbs _ _ | .btfs _ _
  | .bfbs _ _ | .bffs _ _ | .lis _ _ | .lcs _ _ | .ais _ _ | .sis _ _ | .epor _ _ | .lfr _ _ | .cfr _ _
  | .afr _ _ | .sfr _ _ | .mfr _ _ | .dfr _ _ | .sth _ _ _ | .bal _ _ _ | .btc _ _ _ | .bfc _ _ _ | .nh _ _ _
  | .clh _ _ _ | .oh _ _ _ | .xh _ _ _ | .lh _ _ _ | .ch _ _ _ | .ah _ _ _ | .sh _ _ _ | .ach _ _ _ | .sch _ _ _
  | .lcnh _ _ _ | .lav _ _ _ | .lch _ _ _ | .ahm _ _ _ | .atl _ _ _ | .abl _ _ _ | .rtl _ _ _ | .rbl _ _ _
  | .stf _ _ _ | .lh0 _ _ _ | .lh1 _ _ _ | .lh2 _ _ _ | .lh3 _ _ _ | .lf _ _ _ | .cf _ _ _ | .af _ _ _
  | .sf _ _ _ | .mf _ _ _ | .df _ _ _ | .srls _ _ | .slls _ _ | .stbr _ _ | .lbr _ _ | .exbr _ _ | .epsr _ _
  | .whr _ _ | .rhr _ _ | .wdr _ _ | .rdr _ _ | .ssr _ _ | .ocr _ _ | .air _ _ | .thi _ _ _ | .nhi _ _ _
  | .clhi _ _ _ | .ohi _ _ _ | .xhi _ _ _ | .lhi _ _ _ | .chi _ _ _ | .ahi _ _ _ | .shi _ _ _ | .srhl _ _ _
  | .slhl _ _ _ | .srha _ _ _ | .slha _ _ _ | .stm _ _ _ | .lm _ _ _ | .stb _ _ _ | .lb _ _ _ | .clb _ _ _
  | .wb _ _ _ | .rb _ _ _ | .wh _ _ _ | .rh _ _ _ | .wd _ _ _ | .rd _ _ _ | .ss _ _ _ | .oc _ _ _ | .ai _ _ _
  | .svc _ _ _ | .sth0 _ _ _ | .sth1 _ _ _ | .sth2 _ _ _ | .sth3 _ _ _ | .ecpr _ _ => []

/-- The instruction breaks no restriction of rules R98 and R99. -/
abbrev WellFormed (i : Instr) : Prop := i.violations = []

end Sys2Proof
end

