-- ==== Sys2Proof/Decode.lean ====
section
/-! DEFINITION. Decoding and encoding (30_encoding.md). The decoder takes an instruction's bytes in memory order, the
operation code first (rule R90), and answers the instruction and the bytes after it, or rejects by name. The operation
code alone selects the instruction (rules R91, R101); in `decode` and `encode` AER, SRQL and SRQA stand at the spec's
values 2A, E8 and E6 (rules R102, R4, log 12), in `decodeWith` and `encodeWith` at those of an installation. No operation code of the nine
trigonometric instructions survives (rule R105), so no bytes decode to them and the encoder answers `none` for them. -/

namespace Sys2Proof

/-- The length in bytes that the operation code's row gives an instruction (rule R100). -/
def opLength (op : Byte) : Nat :=
  if op.toNat < 0x40 then 2
  else if op.toNat < 0x80 then 4
  else if op.toNat < 0xa0 then 2
  else 4

/-- The opcode map of rule R101 with the corrections of rule R102: the instruction an operation code selects, from the
two 4-bit fields of the first halfword and the second halfword. `none` is a dash of the map, an unassigned code
(rule R103). -/
def decodeOp (op : Byte) (r1 r2 : RegNo) (w : Half) : Option Instr :=
  match op.toNat with
  | 0x01 => some (.balr r1 r2)
  | 0x02 => some (.btcr r1 r2)
  | 0x03 => some (.bfcr r1 r2)
  | 0x04 => some (.nhr r1 r2)
  | 0x05 => some (.clhr r1 r2)
  | 0x06 => some (.ohr r1 r2)
  | 0x07 => some (.xhr r1 r2)
  | 0x08 => some (.lhr r1 r2)
  | 0x09 => some (.chr r1 r2)
  | 0x0a => some (.ahr r1 r2)
  | 0x0b => some (.shr r1 r2)
  | 0x0c => some (.mhr r1 r2)
  | 0x0d => some (.dhr r1 r2)
  | 0x0e => some (.achr r1 r2)
  | 0x0f => some (.schr r1 r2)
  | 0x10 => some (.lcnhr r1 r2)
  | 0x11 => some (.lavr r1 r2)
  | 0x12 => some (.lchr r1 r2)
  | 0x15 => some (.cldpr r1 r2)
  | 0x18 => some (.ldpr r1 r2)
  | 0x19 => some (.cdpr r1 r2)
  | 0x1a => some (.adpr r1 r2)
  | 0x1b => some (.sdpr r1 r2)
  | 0x1c => some (.mdpr r1 r2)
  | 0x1d => some (.ddpr r1 r2)
  | 0x20 => some (.btbs r1 r2)
  | 0x21 => some (.btfs r1 r2)
  | 0x22 => some (.bfbs r1 r2)
  | 0x23 => some (.bffs r1 r2)
  | 0x24 => some (.lis r1 r2)
  | 0x25 => some (.lcs r1 r2)
  | 0x26 => some (.ais r1 r2)
  | 0x27 => some (.sis r1 r2)
  | 0x28 => some (.ler r1 r2)
  | 0x29 => some (.cer r1 r2)
  | 0x2a => some (.aer r1 r2)
  | 0x2b => some (.ser r1 r2)
  | 0x2c => some (.mer r1 r2)
  | 0x2d => some (.der r1 r2)
  | 0x2e => some (.epor r1 r2)
  | 0x2f => some (.eppr r1 r2)
  | 0x38 => some (.lfr r1 r2)
  | 0x39 => some (.cfr r1 r2)
  | 0x3a => some (.afr r1 r2)
  | 0x3b => some (.sfr r1 r2)
  | 0x3c => some (.mfr r1 r2)
  | 0x3d => some (.dfr r1 r2)
  | 0x40 => some (.sth r1 r2 w)
  | 0x41 => some (.bal r1 r2 w)
  | 0x42 => some (.btc r1 r2 w)
  | 0x43 => some (.bfc r1 r2 w)
  | 0x44 => some (.nh r1 r2 w)
  | 0x45 => some (.clh r1 r2 w)
  | 0x46 => some (.oh r1 r2 w)
  | 0x47 => some (.xh r1 r2 w)
  | 0x48 => some (.lh r1 r2 w)
  | 0x49 => some (.ch r1 r2 w)
  | 0x4a => some (.ah r1 r2 w)
  | 0x4b => some (.sh r1 r2 w)
  | 0x4c => some (.mh r1 r2 w)
  | 0x4d => some (.dh r1 r2 w)
  | 0x4e => some (.ach r1 r2 w)
  | 0x4f => some (.sch r1 r2 w)
  | 0x50 => some (.stdp r1 r2 w)
  | 0x51 => some (.lcnh r1 r2 w)
  | 0x52 => some (.lav r1 r2 w)
  | 0x53 => some (.lch r1 r2 w)
  | 0x55 => some (.cldp r1 r2 w)
  | 0x58 => some (.ldp r1 r2 w)
  | 0x59 => some (.cdp r1 r2 w)
  | 0x5a => some (.adp r1 r2 w)
  | 0x5b => some (.sdp r1 r2 w)
  | 0x5c => some (.mdp r1 r2 w)
  | 0x5d => some (.ddp r1 r2 w)
  | 0x60 => some (.ste r1 r2 w)
  | 0x61 => some (.ahm r1 r2 w)
  | 0x64 => some (.atl r1 r2 w)
  | 0x65 => some (.abl r1 r2 w)
  | 0x66 => some (.rtl r1 r2 w)
  | 0x67 => some (.rbl r1 r2 w)
  | 0x68 => some (.le r1 r2 w)
  | 0x69 => some (.ce r1 r2 w)
  | 0x6a => some (.ae r1 r2 w)
  | 0x6b => some (.se r1 r2 w)
  | 0x6c => some (.me r1 r2 w)
  | 0x6d => some (.de r1 r2 w)
  | 0x70 => some (.stf r1 r2 w)
  | 0x74 => some (.lh0 r1 r2 w)
  | 0x75 => some (.lh1 r1 r2 w)
  | 0x76 => some (.lh2 r1 r2 w)
  | 0x77 => some (.lh3 r1 r2 w)
  | 0x78 => some (.lf r1 r2 w)
  | 0x79 => some (.cf r1 r2 w)
  | 0x7a => some (.af r1 r2 w)
  | 0x7b => some (.sf r1 r2 w)
  | 0x7c => some (.mf r1 r2 w)
  | 0x7d => some (.df r1 r2 w)
  | 0x90 => some (.srls r1 r2)
  | 0x91 => some (.slls r1 r2)
  | 0x92 => some (.stbr r1 r2)
  | 0x93 => some (.lbr r1 r2)
  | 0x94 => some (.exbr r1 r2)
  | 0x95 => some (.epsr r1 r2)
  | 0x96 => some (.wbr r1 r2)
  | 0x97 => some (.rbr r1 r2)
  | 0x98 => some (.whr r1 r2)
  | 0x99 => some (.rhr r1 r2)
  | 0x9a => some (.wdr r1 r2)
  | 0x9b => some (.rdr r1 r2)
  | 0x9c => some (.mhur r1 r2)
  | 0x9d => some (.ssr r1 r2)
  | 0x9e => some (.ocr r1 r2)
  | 0x9f => some (.air r1 r2)
  | 0xc0 => some (.bxh r1 r2 w)
  | 0xc1 => some (.bxle r1 r2 w)
  | 0xc2 => some (.lpsw r1 r2 w)
  | 0xc3 => some (.thi r1 r2 w)
  | 0xc4 => some (.nhi r1 r2 w)
  | 0xc5 => some (.clhi r1 r2 w)
  | 0xc6 => some (.ohi r1 r2 w)
  | 0xc7 => some (.xhi r1 r2 w)
  | 0xc8 => some (.lhi r1 r2 w)
  | 0xc9 => some (.chi r1 r2 w)
  | 0xca => some (.ahi r1 r2 w)
  | 0xcb => some (.shi r1 r2 w)
  | 0xcc => some (.srhl r1 r2 w)
  | 0xcd => some (.slhl r1 r2 w)
  | 0xce => some (.srha r1 r2 w)
  | 0xcf => some (.slha r1 r2 w)
  | 0xd0 => some (.stm r1 r2 w)
  | 0xd1 => some (.lm r1 r2 w)
  | 0xd2 => some (.stb r1 r2 w)
  | 0xd3 => some (.lb r1 r2 w)
  | 0xd4 => some (.clb r1 r2 w)
  | 0xd5 => some (.al r1 r2 w)
  | 0xd6 => some (.wb r1 r2 w)
  | 0xd7 => some (.rb r1 r2 w)
  | 0xd8 => some (.wh r1 r2 w)
  | 0xd9 => some (.rh r1 r2 w)
  | 0xda => some (.wd r1 r2 w)
  | 0xdb => some (.rd r1 r2 w)
  | 0xdc => some (.mhu r1 r2 w)
  | 0xdd => some (.ss r1 r2 w)
  | 0xde => some (.oc r1 r2 w)
  | 0xdf => some (.ai r1 r2 w)
  | 0xe1 => some (.svc r1 r2 w)
  | 0xe2 => some (.sint r1 r2 w)
  | 0xe3 => some (.resb r1 r2 w)
  | 0xe4 => some (.sesb r1 r2 w)
  | 0xe6 => some (.srqa r1 r2 w)
  | 0xe7 => some (.slql r1 r2 w)
  | 0xe8 => some (.srql r1 r2 w)
  | 0xe9 => some (.slqa r1 r2 w)
  | 0xea => some (.rrl r1 r2 w)
  | 0xeb => some (.rll r1 r2 w)
  | 0xec => some (.srl r1 r2 w)
  | 0xed => some (.sll r1 r2 w)
  | 0xee => some (.sra r1 r2 w)
  | 0xef => some (.sla r1 r2 w)
  | 0xf8 => some (.sth0 r1 r2 w)
  | 0xf9 => some (.sth1 r1 r2 w)
  | 0xfa => some (.sth2 r1 r2 w)
  | 0xfb => some (.sth3 r1 r2 w)
  | _ => none

/-- Why bytes are no instruction. -/
inductive DecodeReject where
  /-- There are fewer bytes than the instruction's length. -/
  | truncated
  /-- The operation code is outside the repertoire (rule R103). -/
  | unassigned (op : Byte)
deriving DecidableEq, Repr

/-- The instruction whose operation code is `op` and whose fields are `r1`, `r2`, `w`, with the bytes after it. -/
def decodeFields (op : Byte) (r1 r2 : RegNo) (w : Half) (rest : List Byte) : Except DecodeReject (Instr × List Byte) :=
  match decodeOp op r1 r2 w with
  | none => .error (.unassigned op)
  | some i => .ok (i, rest)

/-- Read one instruction from bytes in memory order (rules R90, R100). -/
def decode (bytes : List Byte) : Except DecodeReject (Instr × List Byte) :=
  match bytes with
  | op :: b :: rest =>
    if opLength op = 2 then decodeFields op (b.extractLsb' 4 4) (b.extractLsb' 0 4) 0 rest
    else
      match rest with
      | hi :: lo :: rest' => decodeFields op (b.extractLsb' 4 4) (b.extractLsb' 0 4) (hi ++ lo) rest'
      | _ => .error .truncated
  | _ => .error .truncated

/-- The operation code of the opcode map that an operation code of an installation stands for; `none` where it is one of
the map's three disputed codes that the installation does not use (00_scope.md rule R4, log 12). An instruction that an
installation places in a row of the other length keeps the length of its own format, where 30_encoding.md rule R100 gives
the row's: DESIGN CHOICE (log 12). -/
def mapCode (c : Config.OperationCodes) (op : Byte) : Option Byte :=
  if op = c.aer then some 0x2a
  else if op = c.srql then some 0xe8
  else if op = c.srqa then some 0xe6
  else if op = 0x2a ∨ op = 0xe8 ∨ op = 0xe6 then none
  else some op

/-- Read one instruction with the operation codes of an installation. -/
def decodeWith (c : Config.OperationCodes) (bytes : List Byte) : Except DecodeReject (Instr × List Byte) :=
  match bytes with
  | [] => .error .truncated
  | op :: rest =>
    match mapCode c op with
    | none => .error (.unassigned op)
    | some op' => decode (op' :: rest)

/-- The bytes of an instruction of the opcode table from a table word: for a row of at most 16 bits the word is the
first halfword and the bytes after it are zero; for a longer row the first halfword is the word's high half, as the
table's `match` and `fixed` columns number it (log 40). -/
def tableBytes (nbits w : Nat) : List Byte :=
  if nbits ≤ 16 then [BitVec.ofNat 8 (w / 256), BitVec.ofNat 8 w, 0, 0]
  else [BitVec.ofNat 8 (w / 16777216), BitVec.ofNat 8 (w / 65536), BitVec.ofNat 8 (w / 256), BitVec.ofNat 8 w]

/-- The instruction the decoder reads from a word of the opcode table. -/
def decodeTableWord (nbits w : Nat) : Option Instr :=
  match decode (tableBytes nbits w) with
  | .ok (i, _) => some i
  | .error _ => none

/-- The encoded parts of an instruction: the operation code, the two 4-bit fields and, for the 4-byte formats, the second
halfword (Figure 2-34, rule R90). -/
inductive Encoding where
  /-- A 2-byte instruction, formats RR and SF. -/
  | short (op : Byte) (r1 r2 : RegNo)
  /-- A 4-byte instruction, formats RX and RI. -/
  | long (op : Byte) (r1 r2 : RegNo) (w : Half)
deriving DecidableEq, Repr

/-- The operation code and fields of every instruction that has an operation code (rule R101). -/
def encodeParts (i : Instr) : Option Encoding :=
  match i with
  | .balr r1 r2 => some (.short 0x01#8 r1 r2)
  | .btcr m1 r2 => some (.short 0x02#8 m1 r2)
  | .bfcr m1 r2 => some (.short 0x03#8 m1 r2)
  | .nhr r1 r2 => some (.short 0x04#8 r1 r2)
  | .clhr r1 r2 => some (.short 0x05#8 r1 r2)
  | .ohr r1 r2 => some (.short 0x06#8 r1 r2)
  | .xhr r1 r2 => some (.short 0x07#8 r1 r2)
  | .lhr r1 r2 => some (.short 0x08#8 r1 r2)
  | .chr r1 r2 => some (.short 0x09#8 r1 r2)
  | .ahr r1 r2 => some (.short 0x0a#8 r1 r2)
  | .shr r1 r2 => some (.short 0x0b#8 r1 r2)
  | .mhr r1 r2 => some (.short 0x0c#8 r1 r2)
  | .dhr r1 r2 => some (.short 0x0d#8 r1 r2)
  | .achr r1 r2 => some (.short 0x0e#8 r1 r2)
  | .schr r1 r2 => some (.short 0x0f#8 r1 r2)
  | .lcnhr r1 r2 => some (.short 0x10#8 r1 r2)
  | .lavr r1 r2 => some (.short 0x11#8 r1 r2)
  | .lchr r1 r2 => some (.short 0x12#8 r1 r2)
  | .cldpr r1 r2 => some (.short 0x15#8 r1 r2)
  | .ldpr r1 r2 => some (.short 0x18#8 r1 r2)
  | .cdpr r1 r2 => some (.short 0x19#8 r1 r2)
  | .adpr r1 r2 => some (.short 0x1a#8 r1 r2)
  | .sdpr r1 r2 => some (.short 0x1b#8 r1 r2)
  | .mdpr r1 r2 => some (.short 0x1c#8 r1 r2)
  | .ddpr r1 r2 => some (.short 0x1d#8 r1 r2)
  | .btbs m1 n => some (.short 0x20#8 m1 n)
  | .btfs m1 n => some (.short 0x21#8 m1 n)
  | .bfbs m1 n => some (.short 0x22#8 m1 n)
  | .bffs m1 n => some (.short 0x23#8 m1 n)
  | .lis r1 n => some (.short 0x24#8 r1 n)
  | .lcs r1 n => some (.short 0x25#8 r1 n)
  | .ais r1 n => some (.short 0x26#8 r1 n)
  | .sis r1 n => some (.short 0x27#8 r1 n)
  | .ler r1 r2 => some (.short 0x28#8 r1 r2)
  | .cer r1 r2 => some (.short 0x29#8 r1 r2)
  | .aer r1 r2 => some (.short 0x2a#8 r1 r2)
  | .ser r1 r2 => some (.short 0x2b#8 r1 r2)
  | .mer r1 r2 => some (.short 0x2c#8 r1 r2)
  | .der r1 r2 => some (.short 0x2d#8 r1 r2)
  | .epor r1 r2 => some (.short 0x2e#8 r1 r2)
  | .eppr r1 r2 => some (.short 0x2f#8 r1 r2)
  | .lfr r1 r2 => some (.short 0x38#8 r1 r2)
  | .cfr r1 r2 => some (.short 0x39#8 r1 r2)
  | .afr r1 r2 => some (.short 0x3a#8 r1 r2)
  | .sfr r1 r2 => some (.short 0x3b#8 r1 r2)
  | .mfr r1 r2 => some (.short 0x3c#8 r1 r2)
  | .dfr r1 r2 => some (.short 0x3d#8 r1 r2)
  | .sth r1 x2 a2 => some (.long 0x40#8 r1 x2 a2)
  | .bal r1 x2 a2 => some (.long 0x41#8 r1 x2 a2)
  | .btc m1 x2 a2 => some (.long 0x42#8 m1 x2 a2)
  | .bfc m1 x2 a2 => some (.long 0x43#8 m1 x2 a2)
  | .nh r1 x2 a2 => some (.long 0x44#8 r1 x2 a2)
  | .clh r1 x2 a2 => some (.long 0x45#8 r1 x2 a2)
  | .oh r1 x2 a2 => some (.long 0x46#8 r1 x2 a2)
  | .xh r1 x2 a2 => some (.long 0x47#8 r1 x2 a2)
  | .lh r1 x2 a2 => some (.long 0x48#8 r1 x2 a2)
  | .ch r1 x2 a2 => some (.long 0x49#8 r1 x2 a2)
  | .ah r1 x2 a2 => some (.long 0x4a#8 r1 x2 a2)
  | .sh r1 x2 a2 => some (.long 0x4b#8 r1 x2 a2)
  | .mh r1 x2 a2 => some (.long 0x4c#8 r1 x2 a2)
  | .dh r1 x2 a2 => some (.long 0x4d#8 r1 x2 a2)
  | .ach r1 x2 a2 => some (.long 0x4e#8 r1 x2 a2)
  | .sch r1 x2 a2 => some (.long 0x4f#8 r1 x2 a2)
  | .stdp r1 x2 a2 => some (.long 0x50#8 r1 x2 a2)
  | .lcnh r1 x2 a2 => some (.long 0x51#8 r1 x2 a2)
  | .lav r1 x2 a2 => some (.long 0x52#8 r1 x2 a2)
  | .lch r1 x2 a2 => some (.long 0x53#8 r1 x2 a2)
  | .cldp r1 x2 a2 => some (.long 0x55#8 r1 x2 a2)
  | .ldp r1 x2 a2 => some (.long 0x58#8 r1 x2 a2)
  | .cdp r1 x2 a2 => some (.long 0x59#8 r1 x2 a2)
  | .adp r1 x2 a2 => some (.long 0x5a#8 r1 x2 a2)
  | .sdp r1 x2 a2 => some (.long 0x5b#8 r1 x2 a2)
  | .mdp r1 x2 a2 => some (.long 0x5c#8 r1 x2 a2)
  | .ddp r1 x2 a2 => some (.long 0x5d#8 r1 x2 a2)
  | .ste r1 x2 a2 => some (.long 0x60#8 r1 x2 a2)
  | .ahm r1 x2 a2 => some (.long 0x61#8 r1 x2 a2)
  | .atl r1 x2 a2 => some (.long 0x64#8 r1 x2 a2)
  | .abl r1 x2 a2 => some (.long 0x65#8 r1 x2 a2)
  | .rtl r1 x2 a2 => some (.long 0x66#8 r1 x2 a2)
  | .rbl r1 x2 a2 => some (.long 0x67#8 r1 x2 a2)
  | .le r1 x2 a2 => some (.long 0x68#8 r1 x2 a2)
  | .ce r1 x2 a2 => some (.long 0x69#8 r1 x2 a2)
  | .ae r1 x2 a2 => some (.long 0x6a#8 r1 x2 a2)
  | .se r1 x2 a2 => some (.long 0x6b#8 r1 x2 a2)
  | .me r1 x2 a2 => some (.long 0x6c#8 r1 x2 a2)
  | .de r1 x2 a2 => some (.long 0x6d#8 r1 x2 a2)
  | .stf r1 x2 a2 => some (.long 0x70#8 r1 x2 a2)
  | .lh0 r1 x2 a2 => some (.long 0x74#8 r1 x2 a2)
  | .lh1 r1 x2 a2 => some (.long 0x75#8 r1 x2 a2)
  | .lh2 r1 x2 a2 => some (.long 0x76#8 r1 x2 a2)
  | .lh3 r1 x2 a2 => some (.long 0x77#8 r1 x2 a2)
  | .lf r1 x2 a2 => some (.long 0x78#8 r1 x2 a2)
  | .cf r1 x2 a2 => some (.long 0x79#8 r1 x2 a2)
  | .af r1 x2 a2 => some (.long 0x7a#8 r1 x2 a2)
  | .sf r1 x2 a2 => some (.long 0x7b#8 r1 x2 a2)
  | .mf r1 x2 a2 => some (.long 0x7c#8 r1 x2 a2)
  | .df r1 x2 a2 => some (.long 0x7d#8 r1 x2 a2)
  | .srls r1 n => some (.short 0x90#8 r1 n)
  | .slls r1 n => some (.short 0x91#8 r1 n)
  | .stbr r1 r2 => some (.short 0x92#8 r1 r2)
  | .lbr r1 r2 => some (.short 0x93#8 r1 r2)
  | .exbr r1 r2 => some (.short 0x94#8 r1 r2)
  | .epsr r1 r2 => some (.short 0x95#8 r1 r2)
  | .wbr r1 r2 => some (.short 0x96#8 r1 r2)
  | .rbr r1 r2 => some (.short 0x97#8 r1 r2)
  | .whr r1 r2 => some (.short 0x98#8 r1 r2)
  | .rhr r1 r2 => some (.short 0x99#8 r1 r2)
  | .wdr r1 r2 => some (.short 0x9a#8 r1 r2)
  | .rdr r1 r2 => some (.short 0x9b#8 r1 r2)
  | .mhur r1 r2 => some (.short 0x9c#8 r1 r2)
  | .ssr r1 r2 => some (.short 0x9d#8 r1 r2)
  | .ocr r1 r2 => some (.short 0x9e#8 r1 r2)
  | .air r1 r2 => some (.short 0x9f#8 r1 r2)
  | .bxh r1 x2 a2 => some (.long 0xc0#8 r1 x2 a2)
  | .bxle r1 x2 a2 => some (.long 0xc1#8 r1 x2 a2)
  | .lpsw r1 x2 a2 => some (.long 0xc2#8 r1 x2 a2)
  | .thi r1 x2 i2 => some (.long 0xc3#8 r1 x2 i2)
  | .nhi r1 x2 i2 => some (.long 0xc4#8 r1 x2 i2)
  | .clhi r1 x2 i2 => some (.long 0xc5#8 r1 x2 i2)
  | .ohi r1 x2 i2 => some (.long 0xc6#8 r1 x2 i2)
  | .xhi r1 x2 i2 => some (.long 0xc7#8 r1 x2 i2)
  | .lhi r1 x2 i2 => some (.long 0xc8#8 r1 x2 i2)
  | .chi r1 x2 i2 => some (.long 0xc9#8 r1 x2 i2)
  | .ahi r1 x2 i2 => some (.long 0xca#8 r1 x2 i2)
  | .shi r1 x2 i2 => some (.long 0xcb#8 r1 x2 i2)
  | .srhl r1 x2 i2 => some (.long 0xcc#8 r1 x2 i2)
  | .slhl r1 x2 i2 => some (.long 0xcd#8 r1 x2 i2)
  | .srha r1 x2 i2 => some (.long 0xce#8 r1 x2 i2)
  | .slha r1 x2 i2 => some (.long 0xcf#8 r1 x2 i2)
  | .stm r1 x2 a2 => some (.long 0xd0#8 r1 x2 a2)
  | .lm r1 x2 a2 => some (.long 0xd1#8 r1 x2 a2)
  | .stb r1 x2 a2 => some (.long 0xd2#8 r1 x2 a2)
  | .lb r1 x2 a2 => some (.long 0xd3#8 r1 x2 a2)
  | .clb r1 x2 a2 => some (.long 0xd4#8 r1 x2 a2)
  | .al r1 x2 a2 => some (.long 0xd5#8 r1 x2 a2)
  | .wb r1 x2 a2 => some (.long 0xd6#8 r1 x2 a2)
  | .rb r1 x2 a2 => some (.long 0xd7#8 r1 x2 a2)
  | .wh r1 x2 a2 => some (.long 0xd8#8 r1 x2 a2)
  | .rh r1 x2 a2 => some (.long 0xd9#8 r1 x2 a2)
  | .wd r1 x2 a2 => some (.long 0xda#8 r1 x2 a2)
  | .rd r1 x2 a2 => some (.long 0xdb#8 r1 x2 a2)
  | .mhu r1 x2 a2 => some (.long 0xdc#8 r1 x2 a2)
  | .ss r1 x2 a2 => some (.long 0xdd#8 r1 x2 a2)
  | .oc r1 x2 a2 => some (.long 0xde#8 r1 x2 a2)
  | .ai r1 x2 a2 => some (.long 0xdf#8 r1 x2 a2)
  | .svc r1 x2 i2 => some (.long 0xe1#8 r1 x2 i2)
  | .sint r1 x2 i2 => some (.long 0xe2#8 r1 x2 i2)
  | .resb r1 x2 i2 => some (.long 0xe3#8 r1 x2 i2)
  | .sesb r1 x2 i2 => some (.long 0xe4#8 r1 x2 i2)
  | .srqa r1 x2 i2 => some (.long 0xe6#8 r1 x2 i2)
  | .slql r1 x2 i2 => some (.long 0xe7#8 r1 x2 i2)
  | .srql r1 x2 i2 => some (.long 0xe8#8 r1 x2 i2)
  | .slqa r1 x2 i2 => some (.long 0xe9#8 r1 x2 i2)
  | .rrl r1 x2 i2 => some (.long 0xea#8 r1 x2 i2)
  | .rll r1 x2 i2 => some (.long 0xeb#8 r1 x2 i2)
  | .srl r1 x2 i2 => some (.long 0xec#8 r1 x2 i2)
  | .sll r1 x2 i2 => some (.long 0xed#8 r1 x2 i2)
  | .sra r1 x2 i2 => some (.long 0xee#8 r1 x2 i2)
  | .sla r1 x2 i2 => some (.long 0xef#8 r1 x2 i2)
  | .sth0 r1 x2 a2 => some (.long 0xf8#8 r1 x2 a2)
  | .sth1 r1 x2 a2 => some (.long 0xf9#8 r1 x2 a2)
  | .sth2 r1 x2 a2 => some (.long 0xfa#8 r1 x2 a2)
  | .sth3 r1 x2 a2 => some (.long 0xfb#8 r1 x2 a2)
  | .ecpr _ _ => none
  | .cosr _ _ => none
  | .cos _ _ _ => none
  | .asnr _ _ => none
  | .asn _ _ _ => none
  | .atnr _ _ => none
  | .atn _ _ _ => none
  | .sqdr _ _ => none
  | .sqd _ _ _ => none

/-- The bytes of an encoding, the operation code at the lowest address (rule R90). -/
def encodingBytes (e : Encoding) : List Byte :=
  match e with
  | .short op r1 r2 => [op, r1 ++ r2]
  | .long op r1 r2 w => [op, r1 ++ r2, w.extractLsb' 8 8, w.extractLsb' 0 8]

/-- The bytes of an instruction in memory order; `none` for the nine whose operation codes are lost (rule R105). -/
def encode (i : Instr) : Option (List Byte) :=
  (encodeParts i).map encodingBytes

/-- The operation code of an installation for one of the opcode map. -/
def installationCode (c : Config.OperationCodes) (op : Byte) : Byte :=
  if op = 0x2a then c.aer else if op = 0xe8 then c.srql else if op = 0xe6 then c.srqa else op

/-- The bytes of an instruction with the operation codes of an installation. -/
def encodeWith (c : Config.OperationCodes) (i : Instr) : Option (List Byte) :=
  match encode i with
  | none => none
  | some bytes => some (bytes.modifyHead (installationCode c))

end Sys2Proof
end

