-- ==== Sys2Proof/Machine/Fetch.lean ====
section
/-! DEFINITION. The instruction fetch (30_encoding.md rule R106). -/

namespace Sys2Proof.Machine

/-- The bytes of a halfword, the one at the lower address first (20_memory.md rule R66). -/
def halfBytes (h : Half) : List Byte := [highByte h, lowByte h]

/-- Illegal Instruction, with the address of the instruction (60_exceptions.md rule R406). -/
def State.illegal (s : State) : Outcome := s.raise .illegalInstruction s.psw.LOC

/-- Fetch and decode (rule R106): an odd location counter is UNSPECIFIED (log 9), an unassigned code takes the Illegal
Instruction interrupt. The first halfword says whether the instruction has a second, which is a second transfer; `k` runs
the instruction. -/
def State.fetch (s : State) (k : Instr → State → Outcome) : Outcome :=
  if s.psw.LOC.getLsbD 0 then .fault .oddLocationCounter
  else s.readHalf s.psw.IB s.psw.LOC fun h0 t =>
    match decodeWith s.install.codes (halfBytes h0 ++ [0, 0]) with
    | .error _ => t.illegal
    | .ok (i, rest) =>
      if rest = [] then t.readHalf s.psw.IB (s.psw.LOC + 2) fun h1 u =>
        match decodeWith s.install.codes (halfBytes h0 ++ halfBytes h1) with
        | .error _ => u.illegal
        | .ok (j, _) => k j u
      else k i t

/-- Bytes into consecutive addresses of a bank. -/
def State.setBytes (s : State) (b : BankNo) (a : Half) : List Byte → State
  | [] => s
  | v :: rest => (s.setByte b a v).setBytes b (a + 1) rest

end Sys2Proof.Machine
end

