-- ==== Sys2Proof/Machine/Interrupts.lean ====
section
/-! DEFINITION. What a step does other than executing an instruction: the environment's input at the boundary
(60_exceptions.md rule R440), the power sequences (rules R436 to R438), the asynchronous interrupts (rules R403, R410,
R413 to R418) and the wait state (rule R431). -/

namespace Sys2Proof.Machine

/-- Nothing happens: the default environment of rule R440. -/
def Boundary.quiet : Boundary :=
  { attention := false, parity := .none, power := .none, termination := false, overflow := none
    queueEntry := false, dma := [], choice := 0 }

/-- The input of the coming step; the quiet one where none is left (log 19). -/
def State.boundary (s : State) : Boundary := s.env.inputs.headD Boundary.quiet

/-- The state at the boundary: the input is taken off its queue, other agents have written (20_memory.md rule R76, log 35),
and the Termination Queue is as the input says. They write so at every boundary, in stand-by and in the wait state too,
which the spec does not say: DESIGN CHOICE (log 49). With no input left nothing changes. -/
def State.arrived (s : State) : State :=
  match s.env.inputs with
  | [] => s
  | b :: rest =>
    { s with
      mem := agentWrites s.install s.mem b.dma
      env := { s.env with inputs := rest, queueEntry := b.queueEntry } }

/-- The power-down sequence (rule R437): the registers go to the save area in bank 0 and the PSW to X'0024'; execution
stops. -/
def State.powerDown (s : State) : Outcome :=
  s.readHalf 0 0x0022 fun p t => requireEven p
    (State.storeMultiple 0 16 0 p (fun u => u.writeFull 0 0x0024 s.psw.full fun v => .next { v with power := .standBy }) t)

/-- Power is back. What the CPR then holds is not mentioned: a free value (10_state.md rule R39, log 34). -/
def State.powered (s : State) : State :=
  { s with
    cpr := Cpr.ofBits (BitVec.ofBool (s.undef 0) ++ BitVec.ofBool (s.undef 1))
    power := .operational
    draws := s.draws + 2 }

/-- What follows the reload of a restart (rule R436): with bit 2 of the restored PSW set the Machine Malfunction exchange,
which names no flag; else, in the Run mode, resumption; out of the Run mode the source says nothing
(70_reset_and_hazards.md rule R452). -/
def State.resume (s : State) : Outcome :=
  if s.psw.control.MM then s.raise .machineMalfunction s.psw.LOC else require s.runMode .notInRunMode (.next s)

/-- The restart with memory valid (rule R436): the registers from the save area, the PSW from X'0024'. -/
def State.restart (s : State) : Outcome :=
  s.readHalf 0 0x0022 fun p t => requireEven p
    (State.loadMultiple 0 16 0 p (fun u => u.loadPsw 0 0x0024 fun v => v.powered.resume) t)

/-- Causes of a Machine Malfunction between instructions (rule R410). -/
inductive Malfunction where
  /-- A parity error on instruction read: G. -/
  | instructionRead
  /-- A parity error on an operand read: V. -/
  | operandRead
  /-- Advance Power Failure: L. -/
  | powerFailure
deriving DecidableEq, Repr

/-- The flag that is OR-ed into the condition code of the New PSW (rule R410). -/
def Malfunction.flag (k : Malfunction) (c : CC) : CC :=
  match k with
  | .instructionRead => { c with G := true }
  | .operandRead => { c with V := true }
  | .powerFailure => { c with L := true }

/-- The asynchronous conditions of rule R403. -/
inductive Condition where
  /-- Machine Malfunction. -/
  | malfunction (k : Malfunction)
  /-- External Interrupt. -/
  | external
  /-- Immediate Interrupt. -/
  | immediate
  /-- Channel Termination. -/
  | channelTermination
  /-- Channel Termination Queue Overflow, with the termination pointer. -/
  | queueOverflow (pointer : Half)
deriving DecidableEq, Repr

/-- A condition where it is asserted and enabled. -/
def conditionIf (holds : Bool) (c : Condition) : List Condition := if holds then [c] else []

/-- P: the conditions that are asserted and enabled by the current PSW (rules R403, R410, R412, R416, R417). -/
def State.conditions (s : State) (b : Boundary) : List Condition :=
  conditionIf (decide (b.parity = .instructionRead) && s.psw.control.MM) (.malfunction .instructionRead) ++
  conditionIf (decide (b.parity = .operandRead) && s.psw.control.MM) (.malfunction .operandRead) ++
  conditionIf (decide (b.power = .advanceFailure) && s.psw.control.MM) (.malfunction .powerFailure) ++
  conditionIf (b.attention && s.psw.control.EI && !s.psw.control.AS) .external ++
  conditionIf (b.attention && s.psw.control.EI && s.psw.control.AS) .immediate ++
  conditionIf (b.termination && b.queueEntry && s.psw.control.CT) .channelTermination ++
  match b.overflow with
  | none => []
  | some p => [.queueOverflow p]

/-- INT_ARBITRATION: the member of P that the input chooses (rule R418, log 20). -/
def chosen (p : List Condition) (choice : Nat) : Option Condition := p[choice % p.length]?

/-- The Immediate Interrupt (rule R414): the acknowledge is automatic, its status byte is dropped; no answer is
UNSPECIFIED. -/
def State.takeImmediate (s : State) : Outcome :=
  match s.acknowledgeAnswer with
  | none => .refused .noAcknowledge
  | some (d, _) => s.afterAcknowledge.serviceDevice d s.psw.LOC

/-- Takes an asynchronous interrupt; the location counter stored is that of the instruction not yet executed
(rules R403, R405). -/
def State.take (s : State) (c : Condition) : Outcome :=
  match c with
  | .malfunction k => s.exchange .machineMalfunction s.psw.LOC fun t => .next (t.setCC (k.flag t.psw.cc))
  | .external => s.raise .external s.psw.LOC
  | .immediate => s.takeImmediate
  | .channelTermination => s.raise .channelTermination s.psw.LOC
  | .queueOverflow p => s.writeHalf 0 0x008a p fun t => t.raise .queueOverflow s.psw.LOC

/-- What the step does other than executing an instruction, `none` where it executes one (rules R403, R431, R436 to
R438). The power-down comes before an interrupt that is asserted and enabled at the same boundary, and that condition is
not kept: the spec orders the two nowhere, DESIGN CHOICE (log 48). -/
def State.outside (s : State) (b : Boundary) : Option Outcome :=
  match s.power with
  | .standBy =>
    match b.power with
    | .restored true => some s.restart
    | .restored false => some (.refused .startUpSequence)
    | _ => some (.next s)
  | .operational =>
    if b.power = .shutdown then some s.powerDown
    else
      match chosen (s.conditions b) b.choice with
      | some c => some (s.take c)
      | none => if s.psw.control.WT then some (.next s) else none

end Sys2Proof.Machine
end

