-- ==== Sys2Proof/Machine/Step.lean ====
section
/-! DEFINITION. The machine step (60_exceptions.md rule R403). -/

namespace Sys2Proof.Machine

/-- One step: the environment's input arrives; then the machine takes an asynchronous interrupt, idles in the wait state
or executes one instruction (rule R403). -/
def step (s : State) : Host.Outcome State Fault Refusal :=
  match s.arrived.outside s.boundary with
  | some o => o
  | none => s.arrived.fetch exec

/-- An instruction of the opcode table stored where the next step fetches: at the location counter in the instruction
bank (log 38). -/
def State.withFetchWord (s : State) (nbits w : Nat) : State :=
  s.setBytes s.psw.IB s.psw.LOC (tableBytes nbits w)

end Sys2Proof.Machine
end

