-- ==== Sys2Proof/Machine/Run.lean ====
section
/-! DEFINITION. How a run starts, goes on and ends (70_reset_and_hazards.md rules R451, R464, 60_exceptions.md rule
R432). -/

namespace Sys2Proof.Machine

/-- A memory image: bytes by physical address, the later of two at one address standing. -/
def imageMemory (image : List (BitVec 18 × Byte)) : List Host.Cell :=
  image.foldl (fun m e => Memory.write m e.1.toNat e.2) []

/-- `launch(image, regs, psw)` with the caller's CPR, environment and parameters, "the model's only way to start": `none`
for an odd location counter (rule R451). A byte the image does not give reads as log 2 says; the power mode is
operational and the Run mode on (log 38). -/
def launch (install : Config.Installation) (image : List (BitVec 18 × Byte)) (regs : Vector Half 16) (psw : Psw) (cpr : Cpr)
    (env : Env) : Option State :=
  if psw.LOC.getLsbD 0 then none
  else some
    { x := regs
      psw := psw
      mem := imageMemory image
      cpr := cpr
      env := env
      install := install
      power := .operational
      runMode := true
      draws := 0 }

/-- The end of a run: the wait state with no asynchronous interrupt enabled (60_exceptions.md rule R432). -/
def State.hasEnded (s : State) : Bool := s.psw.control.WT && !s.psw.control.EI && !s.psw.control.MM

/-- What a run has come to after some steps (rule R464). -/
inductive RunResult where
  /-- It has ended, with its final state. -/
  | ended (s : State)
  /-- It goes on. -/
  | running (s : State)
  /-- A step was UNSPECIFIED, by a fault: no final state. -/
  | faulted (f : Fault)
  /-- A step was UNSPECIFIED, by a refusal: no final state. -/
  | refused (r : Refusal)
deriving DecidableEq, Repr

/-- At most `n` steps of a run, fewer where it ends or a step is UNSPECIFIED (rule R464). -/
def run : (n : Nat) → State → RunResult
  | 0, s => if s.hasEnded then .ended s else .running s
  | n + 1, s =>
    if s.hasEnded then .ended s
    else
      match step s with
      | .next t => run n t
      | .fault f => .faulted f
      | .refused r => .refused r

/-- The observables of a finished run (rule R464). -/
structure Observables where
  /-- The sixteen general registers. -/
  regs : Vector Half 16
  /-- The PSW. -/
  psw : Psw
  /-- Memory, the floating-point registers in it. -/
  mem : List Host.Cell
  /-- The CPR. -/
  cpr : Cpr
  /-- The calls of the device oracle with their arguments, oldest first. -/
  calls : List DevCall
deriving DecidableEq, Repr

/-- What a final state shows. -/
def State.observables (s : State) : Observables :=
  { regs := s.x, psw := s.psw, mem := s.mem, cpr := s.cpr, calls := s.env.calls.reverse }

/-- A run that never comes to an end (rule R464). -/
def RunsForever (s : State) : Prop := ∀ n, ∃ t, run n s = .running t

end Sys2Proof.Machine
end

