-- ==== Sys2Proof/Safety.lean ====
section
/-! DEFINITION. The terms claims are stated in: what a step leaves unchanged, and when a run has ended. -/

namespace Sys2Proof.Machine

/-- Every general register is as before, but those of the list. -/
def SameRegsBut (rs : List RegNo) (s t : State) : Prop := ∀ r, r ∉ rs → t.reg r = s.reg r

/-- Every byte of memory reads as before. -/
def SameMemory (s t : State) : Prop := ∀ b a, t.byteAt b a = s.byteAt b a

/-- The `n` bytes of bank `b` from `a` on, modulo 2^16. -/
def InSpan (b : BankNo) (a : Half) (n : Nat) (b' : BankNo) (a' : Half) : Prop := b' = b ∧ (a' - a).toNat < n

/-- Every byte of memory outside those `n` bytes reads as before. -/
def SameMemoryOutside (b : BankNo) (a : Half) (n : Nat) (s t : State) : Prop :=
  ∀ b' a', ¬ InSpan b a n b' a' → t.byteAt b' a' = s.byteAt b' a'

/-- PSW bits 0:11 are as before: the control bits and both bank fields. -/
def SameModes (s t : State) : Prop :=
  t.psw.control = s.psw.control ∧ t.psw.IB = s.psw.IB ∧ t.psw.OB = s.psw.OB

/-- What is neither a general register, nor memory, nor the PSW is as before: the CPR, the environment, the power mode,
the Run mode and the parameters of the installation. -/
def SameUnits (s t : State) : Prop :=
  t.cpr = s.cpr ∧ t.env = s.env ∧ t.power = s.power ∧ t.runMode = s.runMode ∧ t.install = s.install

/-- The premise of 20_memory.md rules R62 and R76: no other agent writes between the transfers of the Processor, and all
four banks are present and writable. -/
structure Undisturbed (s : State) : Prop where
  /-- No other agent writes. -/
  alone : s.env.transfers = []
  /-- All of memory is there and takes writes. -/
  fitted : ∀ p < 262144, isWritable s.install p = true

/-- One of the `n` bytes of bank `b` from `a` on, modulo 2^16, holds no memory (20_memory.md rule R62). -/
def Absent (s : State) (b : BankNo) (a : Half) (n : Nat) : Prop :=
  ∃ k < n, isPresent s.install (physical b (a + BitVec.ofNat 16 k)) = false

/-- All of those bytes hold memory, which ignores writes (rule R62). -/
def ReadOnly (s : State) (b : BankNo) (a : Half) (n : Nat) : Prop :=
  ∀ k < n, isPresent s.install (physical b (a + BitVec.ofNat 16 k)) = true ∧
    isWritable s.install (physical b (a + BitVec.ofNat 16 k)) = false

/-- Writes nothing but the registers of the list, flags and the location counter. -/
structure RegisterFrame (rs : List RegNo) (s t : State) : Prop where
  /-- Every other register is as before. -/
  regs : SameRegsBut rs s t
  /-- Memory is as before. -/
  memory : SameMemory s t
  /-- PSW bits 0:11 are as before. -/
  modes : SameModes s t
  /-- So is everything else. -/
  units : SameUnits s t

/-- Writes nothing but `n` bytes of memory, flags and the location counter. -/
structure StoreFrame (b : BankNo) (a : Half) (n : Nat) (s t : State) : Prop where
  /-- Every register is as before. -/
  regs : SameRegsBut [] s t
  /-- Memory outside those bytes is as before. -/
  memory : SameMemoryOutside b a n s t
  /-- PSW bits 0:11 are as before. -/
  modes : SameModes s t
  /-- So is everything else. -/
  units : SameUnits s t

/-- An input/output instruction: writes nothing but the registers of the list, `n` bytes of memory from `a` on in bank
`b`, the environment, flags and the location counter. -/
structure DeviceFrame (rs : List RegNo) (b : BankNo) (a : Half) (n : Nat) (s t : State) : Prop where
  /-- Every other register is as before. -/
  regs : SameRegsBut rs s t
  /-- Memory outside those bytes is as before. -/
  memory : SameMemoryOutside b a n s t
  /-- PSW bits 0:11 are as before. -/
  modes : SameModes s t
  /-- So are the CPR, the power mode, the Run mode, the parameters and the inputs still to come. -/
  units : t.cpr = s.cpr ∧ t.power = s.power ∧ t.runMode = s.runMode ∧ t.install = s.install ∧
    t.env.inputs = s.env.inputs ∧ t.env.transfers = s.env.transfers

/-- A PSW exchange or a PSW load: writes nothing but `n` bytes of bank 0 and the PSW. -/
structure ExchangeFrame (a : Half) (n : Nat) (s t : State) : Prop where
  /-- Every register is as before. -/
  regs : SameRegsBut [] s t
  /-- Memory outside those bytes of bank 0 is as before. -/
  memory : SameMemoryOutside 0 a n s t
  /-- So is everything else. -/
  units : SameUnits s t

/-- The condition code shows the sign of a value: G and L of `GL(v)` (00_scope.md rule R8). -/
structure ShowsSign {n : Nat} (c : CC) (v : BitVec n) : Prop where
  /-- G: greater than zero. -/
  greater : c.G = true ↔ v ≠ 0 ∧ v.msb = false
  /-- L: less than zero. -/
  less : c.L = true ↔ v.msb = true

/-- C and V of an addition, and the sign of the sum as stored (41_arithmetic.md rule R150). -/
structure ShowsSum {n : Nat} (c : CC) (a b : BitVec n) (cin : Bool) : Prop where
  /-- C: the carry. -/
  carry : c.C = true ↔ 2 ^ n ≤ a.toNat + b.toNat + cin.toNat
  /-- V: the signed sum does not fit. -/
  overflow : c.V = true ↔
    a.toInt + b.toInt + cin.toNat < -(2 ^ (n - 1)) ∨ 2 ^ (n - 1) ≤ a.toInt + b.toInt + cin.toNat
  /-- G and L. -/
  sign : ShowsSign c (a + b + BitVec.ofNat n cin.toNat)

/-- C and V of a subtraction, and the sign of the difference as stored (41_arithmetic.md rule R151). -/
structure ShowsDifference {n : Nat} (c : CC) (a b : BitVec n) (bin : Bool) : Prop where
  /-- C: the borrow. -/
  borrow : c.C = true ↔ a.toNat < b.toNat + bin.toNat
  /-- V: the signed difference does not fit. -/
  overflow : c.V = true ↔
    a.toInt - b.toInt - bin.toNat < -(2 ^ (n - 1)) ∨ 2 ^ (n - 1) ≤ a.toInt - b.toInt - bin.toNat
  /-- G and L. -/
  sign : ShowsSign c (a - b - BitVec.ofNat n bin.toNat)

/-- An address that a halfword may stand at (20_memory.md rule R69). -/
def EvenAddress (a : Half) : Prop := a.getLsbD 0 = false

/-- An even register number. -/
def EvenReg (r : RegNo) : Prop := r.getLsbD 0 = false

/-- An even register number that names four registers. -/
def QuadReg (r : RegNo) : Prop := EvenReg r ∧ r.toNat ≤ 12

/-- The instruction completes: it has a next state with the property. -/
def Completes (i : Instr) (s : State) (p : State → Prop) : Prop := ∃ t, exec i s = .next t ∧ p t

/-- A PSW exchange (60_exceptions.md rule R404): status and location counter `loc` to `old`, every field of the PSW from
`new`, both in bank 0. -/
structure Exchanges (s t : State) (old new loc : Half) : Prop where
  /-- The Old PSW. -/
  saved : t.fullAt 0 old = s.psw.status ++ loc
  /-- The New PSW. -/
  loaded : t.psw.full = s.fullAt 0 new
  /-- Nothing else is written. -/
  frame : ExchangeFrame old 4 s t

/-- A halfword load (40_load_store.md rule R120). -/
def LoadsHalf (i : Instr) (s : State) (r1 : RegNo) (v len : Half) : Prop :=
  Completes i s fun t => t.reg r1 = v ∧ ShowsSign t.psw.cc v ∧ t.psw.LOC = s.psw.LOC + len ∧ RegisterFrame [r1] s t

/-- A fullword load (40_load_store.md rule R120). -/
def LoadsFull (i : Instr) (s : State) (r1 : RegNo) (v : Full) (len : Half) : Prop :=
  Completes i s fun t =>
    t.pair r1 = v ∧ ShowsSign t.psw.cc v ∧ t.psw.LOC = s.psw.LOC + len ∧ RegisterFrame [r1, r1 + 1] s t

/-- A store of `n` bytes that leaves the condition code alone; `p` says what the bytes hold. -/
def Stores (i : Instr) (s : State) (b : BankNo) (a : Half) (n : Nat) (p : State → Prop) : Prop :=
  Completes i s fun t =>
    p t ∧ t.psw.cc = s.psw.cc ∧ t.psw.LOC = s.psw.LOC + 4 ∧ StoreFrame b a n s t

/-- A halfword addition into a register. -/
def AddsHalf (i : Instr) (s : State) (r1 : RegNo) (b : Half) (cin : Bool) (len : Half) : Prop :=
  Completes i s fun t =>
    t.reg r1 = s.reg r1 + b + BitVec.ofNat 16 cin.toNat ∧ ShowsSum t.psw.cc (s.reg r1) b cin ∧
      t.psw.LOC = s.psw.LOC + len ∧ RegisterFrame [r1] s t

/-- A halfword subtraction into a register. -/
def SubtractsHalf (i : Instr) (s : State) (r1 : RegNo) (b : Half) (bin : Bool) (len : Half) : Prop :=
  Completes i s fun t =>
    t.reg r1 = s.reg r1 - b - BitVec.ofNat 16 bin.toNat ∧ ShowsDifference t.psw.cc (s.reg r1) b bin ∧
      t.psw.LOC = s.psw.LOC + len ∧ RegisterFrame [r1] s t

/-- A fullword addition into a register pair. -/
def AddsFull (i : Instr) (s : State) (r1 : RegNo) (b : Full) (len : Half) : Prop :=
  Completes i s fun t =>
    t.pair r1 = s.pair r1 + b ∧ ShowsSum t.psw.cc (s.pair r1) b false ∧ t.psw.LOC = s.psw.LOC + len ∧
      RegisterFrame [r1, r1 + 1] s t

/-- A fullword subtraction into a register pair. -/
def SubtractsFull (i : Instr) (s : State) (r1 : RegNo) (b : Full) (len : Half) : Prop :=
  Completes i s fun t =>
    t.pair r1 = s.pair r1 - b ∧ ShowsDifference t.psw.cc (s.pair r1) b false ∧ t.psw.LOC = s.psw.LOC + len ∧
      RegisterFrame [r1, r1 + 1] s t

/-- A result in a register pair with the condition code unchanged; `p` says what the pair holds. -/
def WritesPair (i : Instr) (s : State) (r1 : RegNo) (len : Half) (p : Full → Prop) : Prop :=
  Completes i s fun t =>
    p (t.pair r1) ∧ t.psw.cc = s.psw.cc ∧ t.psw.LOC = s.psw.LOC + len ∧ RegisterFrame [r1, r1 + 1] s t

/-- A result in four registers with the condition code unchanged. -/
def WritesQuad (i : Instr) (s : State) (r1 : RegNo) (len : Half) (p : Dbl → Prop) : Prop :=
  Completes i s fun t =>
    p (t.quad r1) ∧ t.psw.cc = s.psw.cc ∧ t.psw.LOC = s.psw.LOC + len ∧
      RegisterFrame [r1, r1 + 1, r1 + 2, r1 + 3] s t

/-- A divide (41_arithmetic.md rules R176 to R180), with `fits` where the quotient exists and fits, `rs` the registers of
the results and `p` what they hold: the results, or the fault with DF set, or results that nothing says with DF reset. -/
def Divides (i : Instr) (s : State) (rs : List RegNo) (len : Half) (fits : Prop) (p : State → Prop) : Prop :=
  (fits → Completes i s fun t =>
    p t ∧ t.psw.cc = s.psw.cc ∧ t.psw.LOC = s.psw.LOC + len ∧ RegisterFrame rs s t) ∧
  (¬fits → s.psw.control.DF = true → Completes i s fun t => Exchanges s t 0x0048 0x004c (s.psw.LOC + len)) ∧
  (¬fits → s.psw.control.DF = false → Completes i s fun t =>
    t.psw.cc = s.psw.cc ∧ t.psw.LOC = s.psw.LOC + len ∧ RegisterFrame rs s t)

/-- A compare or a test: the condition code alone. -/
def SetsFlags (i : Instr) (s : State) (len : Half) (p : CC → Prop) : Prop :=
  Completes i s fun t => p t.psw.cc ∧ t.psw.LOC = s.psw.LOC + len ∧ RegisterFrame [] s t

/-- The condition code of a logical compare (42_logical_compare.md rule R201). -/
def ShowsLogical {n : Nat} (c : CC) (a b : BitVec n) : Prop :=
  (c.C = true ↔ a.toNat < b.toNat) ∧ ShowsSign c (a - b)

/-- The condition code of an algebraic compare (42_logical_compare.md rule R202). -/
def ShowsOrder {n : Nat} (c : CC) (a b : BitVec n) : Prop :=
  (c.C = true ↔ a.toInt < b.toInt) ∧ (c.G = true ↔ b.toInt < a.toInt) ∧ (c.L = true ↔ a.toInt < b.toInt)

/-- A result in a register with the condition code unchanged. -/
def WritesHalf (i : Instr) (s : State) (r : RegNo) (v len : Half) : Prop :=
  Completes i s fun t =>
    t.reg r = v ∧ t.psw.cc = s.psw.cc ∧ t.psw.LOC = s.psw.LOC + len ∧ RegisterFrame [r] s t

/-- The condition code of a shift by `n` positions with result `r` and last bit out `c` (44_shift_rotate.md rule R231);
with no position shifted nothing is said of C. -/
def ShowsShift {w : Nat} (cc : CC) (r : BitVec w) (n : Nat) (c : Bool) : Prop :=
  (n ≠ 0 → cc.C = c) ∧ cc.V = false ∧ ShowsSign cc r

/-- A halfword shift. -/
def ShiftsHalf (i : Instr) (s : State) (r1 : RegNo) (r : Half) (n : Nat) (c : Bool) (len : Half) : Prop :=
  Completes i s fun t =>
    t.reg r1 = r ∧ ShowsShift t.psw.cc r n c ∧ t.psw.LOC = s.psw.LOC + len ∧ RegisterFrame [r1] s t

/-- A fullword shift. -/
def ShiftsFull (i : Instr) (s : State) (r1 : RegNo) (r : Full) (n : Nat) (c : Bool) : Prop :=
  Completes i s fun t =>
    t.pair r1 = r ∧ ShowsShift t.psw.cc r n c ∧ t.psw.LOC = s.psw.LOC + 4 ∧ RegisterFrame [r1, r1 + 1] s t

/-- A doubleword shift. -/
def ShiftsDouble (i : Instr) (s : State) (r1 : RegNo) (r : Dbl) (n : Nat) (c : Bool) : Prop :=
  Completes i s fun t =>
    t.quad r1 = r ∧ ShowsShift t.psw.cc r n c ∧ t.psw.LOC = s.psw.LOC + 4 ∧
      RegisterFrame [r1, r1 + 1, r1 + 2, r1 + 3] s t

/-- A rotate: C and V are reset. -/
def Rotates (i : Instr) (s : State) (r1 : RegNo) (r : Full) : Prop :=
  Completes i s fun t =>
    t.pair r1 = r ∧ t.psw.cc.C = false ∧ t.psw.cc.V = false ∧ ShowsSign t.psw.cc r ∧
      t.psw.LOC = s.psw.LOC + 4 ∧ RegisterFrame [r1, r1 + 1] s t

/-- The location counter alone changes. -/
def GoesTo (i : Instr) (s : State) (target : Half) : Prop :=
  Completes i s fun t => t.psw.LOC = target ∧ t.psw.cc = s.psw.cc ∧ RegisterFrame [] s t

/-- Some flag that the mask selects is set (45_branch.md rule R260): the mask bits face C, V, G and L. -/
def Selected (c : CC) (m1 : RegNo) : Bool :=
  (c.C && m1.getLsbD 3) || (c.V && m1.getLsbD 2) || (c.G && m1.getLsbD 1) || (c.L && m1.getLsbD 0)

/-- Nothing but floating-point register `r1`, flags and the location counter is written. -/
def FloatFrame (r1 : RegNo) (s t : State) : Prop := StoreFrame 0 (floatAddress r1) 4 s t

/-- A floating-point instruction completes with state `t`, or, where its outcome is a fault and PSW.FP is set, with the
Floating-Point Arithmetic Fault taken in `t` (46_floating_point.md rule R283). `p` says what `t` holds. -/
def FloatCompletes (i : Instr) (s : State) (r1 : RegNo) (len : Half) (fault : Bool) (p : State → Prop) : Prop :=
  ∃ t, p t ∧ t.psw.LOC = s.psw.LOC + len ∧ FloatFrame r1 s t ∧
    (if fault && s.psw.control.FP then Completes i s fun u => Exchanges t u 0x0028 0x002c (s.psw.LOC + len)
      else exec i s = .next t)

/-- V, G and L are as given. -/
def FlagsVGL (c : CC) (v g l : Bool) : Prop := c.V = v ∧ c.G = g ∧ c.L = l

/-- A floating-point load of `w` (46_floating_point.md rule R287), by the number `k` of digits it is shifted. -/
def FloatLoads (i : Instr) (s : State) (r1 : RegNo) (w : Full) (len : Half) : Prop :=
  let p := unpackFloat w
  (p.frac = 0 → FloatCompletes i s r1 len false fun t =>
    t.floatReg r1 = 0 ∧ FlagsVGL t.psw.cc false false false) ∧
  (∀ k : Nat, 2 ^ 20 ≤ p.frac * 16 ^ k → p.frac * 16 ^ k < 2 ^ 24 →
    (-64 ≤ p.exp - k → FloatCompletes i s r1 len false fun t =>
      unpackFloat (t.floatReg r1) = ⟨p.neg, p.exp - k, p.frac * 16 ^ k⟩ ∧
        FlagsVGL t.psw.cc false (!p.neg) p.neg) ∧
    (p.exp - k < -64 → FloatCompletes i s r1 len true fun t =>
      t.floatReg r1 = 0 ∧ FlagsVGL t.psw.cc true false false))

/-- What the five outcomes put into R1 and into V (46_floating_point.md rule R283). -/
def FloatOutcome (s t : State) (r1 : RegNo) (r : FloatResult) : Prop :=
  match r with
  | .zero => t.floatReg r1 = 0 ∧ FlagsVGL t.psw.cc false false false
  | .num neg e f => t.floatReg r1 = packFloat neg e f ∧ FlagsVGL t.psw.cc false (!neg) neg
  | .overflow neg => t.floatReg r1 = maxMagnitude neg ∧ t.psw.cc.V = true
  | .underflow => t.floatReg r1 = 0 ∧ FlagsVGL t.psw.cc true false false
  | .divideByZero => t.floatReg r1 = s.floatReg r1 ∧ FlagsVGL t.psw.cc true false false

/-- Floating-point add, subtract, multiply or divide of normalized operands, with the outcome `r`; `q` says what the
chart of the instruction adds. -/
def FloatArithmetic (i : Instr) (s : State) (r1 : RegNo) (r : FloatResult) (len : Half) (q : CC → Prop) : Prop :=
  FloatCompletes i s r1 len r.isFault fun t => FloatOutcome s t r1 r ∧ q t.psw.cc

/-- The add chart on overflow: G or L by the sign (46_floating_point.md rule R290). -/
def SumChart (r : FloatResult) (c : CC) : Prop := ∀ neg, r = .overflow neg → c.G = !neg ∧ c.L = neg

/-- The divide chart: C says that the divisor was zero, and on overflow G or L is set (46_floating_point.md rule
R298). -/
def QuotientChart (r : FloatResult) (c : CC) : Prop :=
  (c.C = true ↔ r = .divideByZero) ∧ ∀ neg, r = .overflow neg → c.G = true ∨ c.L = true

/-- A run has ended (60_exceptions.md rule R432). -/
def Ended (s : State) : Prop := s.psw.control.WT = true ∧ s.psw.control.EI = false ∧ s.psw.control.MM = false

/-- A normalized number in range (46_floating_point.md rule R283). -/
def FloatInRange (e : Int) (f : Nat) : Prop := 2 ^ 20 ≤ f ∧ f < 2 ^ 24 ∧ -64 ≤ e ∧ e ≤ 63

/-- Writes nothing but the registers of the list and the PSW. -/
structure PswFrame (rs : List RegNo) (s t : State) : Prop where
  /-- Every other register is as before. -/
  regs : SameRegsBut rs s t
  /-- Memory is as before. -/
  memory : SameMemory s t
  /-- So is everything else. -/
  units : SameUnits s t

/-- An instruction that loads a status (47_system_control.md rules R310, R311) completes with state `t`, or, where the
loaded bit 6 is set and the Termination Queue has an entry, with the Channel Termination exchange taken in `t` (rule
R316). `p` says what `t` holds. -/
def LoadsStatus (i : Instr) (s : State) (rs : List RegNo) (p : State → Prop) : Prop :=
  ∃ t, p t ∧ PswFrame rs s t ∧
    ((t.psw.control.CT = true ∧ t.env.queueEntry = true ∧
        Completes i s fun u => Exchanges t u 0x0082 0x0086 t.psw.LOC) ∨
      (¬(t.psw.control.CT = true ∧ t.env.queueEntry = true) ∧ exec i s = .next t))

/-- Floating-point arithmetic that completes with a result and flags that nothing says, and no interrupt. -/
def FloatOpen (i : Instr) (s : State) (r1 : RegNo) (len : Half) : Prop :=
  Completes i s fun t => t.psw.LOC = s.psw.LOC + len ∧ FloatFrame r1 s t

/-- An input/output instruction completes with environment `e`. -/
def DeviceCompletes (i : Instr) (s : State) (rs : List RegNo) (b : BankNo) (a : Half) (n : Nat) (len : Half) (e : Env)
    (p : State → Prop) : Prop :=
  Completes i s fun t => p t ∧ t.psw.LOC = s.psw.LOC + len ∧ t.env = e ∧ DeviceFrame rs b a n s t

/-- The environment after device `d` has been addressed. -/
def Env.selected (e : Env) (d : Byte) : Env := { e with selects := e.selects.tail, calls := .select d :: e.calls }

/-- The environment after the acknowledge. -/
def Env.acknowledged (e : Env) : Env := { e with acks := e.acks.tail, calls := .acknowledge :: e.calls }

/-- A device that does not answer: V is set, what the destination holds is open (48_input_output.md rule R333). -/
def TimesOut (i : Instr) (s : State) (rs : List RegNo) (b : BankNo) (a : Half) (n : Nat) (len : Half) (d : Byte) : Prop :=
  DeviceCompletes i s rs b a n len (s.env.selected d) fun t => t.psw.cc.V = true

/-- A result of the augment set: a halfword in R1 and all four flags. -/
def Augments (i : Instr) (s : State) (r1 : RegNo) (v : Half) (c : BitVec 4) (len : Half) : Prop :=
  Completes i s fun t => t.reg r1 = v ∧ t.psw.cc.bits = c ∧ t.psw.LOC = s.psw.LOC + len ∧ RegisterFrame [r1] s t

/-- The privileged set (60_exceptions.md rule R426), with every operand. -/
def privilegedSet (r1 r2 : RegNo) (w : Half) : List Instr :=
  [.air r1 r2, .ai r1 r2 w, .ssr r1 r2, .ss r1 r2 w, .ocr r1 r2, .oc r1 r2 w, .rdr r1 r2, .rd r1 r2 w, .wdr r1 r2,
    .wd r1 r2 w, .rhr r1 r2, .rh r1 r2 w, .whr r1 r2, .wh r1 r2 w, .al r1 r2 w, .rbr r1 r2, .rb r1 r2 w, .wbr r1 r2,
    .wb r1 r2 w, .lpsw r1 r2 w, .epsr r1 r2, .sint r1 r2 w, .sesb r1 r2 w, .resb r1 r2 w]

/-- The instructions with an operand that must stand at an even address, with every R1 and no privilege needed. -/
def evenOperandSet (r1 x2 : RegNo) (w : Half) : List Instr :=
  [.lh r1 x2 w, .lh0 r1 x2 w, .lh1 r1 x2 w, .lh2 r1 x2 w, .lh3 r1 x2 w, .sth r1 x2 w, .sth0 r1 x2 w, .sth1 r1 x2 w,
    .sth2 r1 x2 w, .sth3 r1 x2 w, .lm r1 x2 w, .stm r1 x2 w, .ah r1 x2 w, .ahm r1 x2 w, .ach r1 x2 w, .sh r1 x2 w,
    .sch r1 x2 w, .nh r1 x2 w, .oh r1 x2 w, .xh r1 x2 w, .clh r1 x2 w, .ch r1 x2 w, .atl r1 x2 w, .abl r1 x2 w,
    .rtl r1 x2 w, .rbl r1 x2 w, .lch r1 x2 w, .lcnh r1 x2 w, .lav r1 x2 w]

/-- Those whose R1 must be even. -/
def evenPairSet (r1 x2 : RegNo) (w : Half) : List Instr :=
  [.ldp r1 x2 w, .stdp r1 x2 w, .adp r1 x2 w, .sdp r1 x2 w, .mh r1 x2 w, .mhu r1 x2 w, .dh r1 x2 w, .cldp r1 x2 w,
    .cdp r1 x2 w, .le r1 x2 w, .ste r1 x2 w, .ae r1 x2 w, .se r1 x2 w, .ce r1 x2 w, .me r1 x2 w, .de r1 x2 w,
    .asn r1 x2 w, .sqd r1 x2 w]

/-- Those whose R1 must name four registers. -/
def evenQuadSet (r1 x2 : RegNo) (w : Half) : List Instr := [.mdp r1 x2 w, .ddp r1 x2 w, .cos r1 x2 w, .atn r1 x2 w]

/-- The privileged ones. -/
def evenPrivilegedSet (r1 x2 : RegNo) (w : Half) : List Instr :=
  [.lpsw 0 x2 w, .rh r1 x2 w, .wh r1 x2 w, .rb r1 x2 w, .wb r1 x2 w]

/-- The instructions that take a device number from R1 (48_input_output.md rule R331), with every operand. -/
def addressedSet (r1 r2 x2 : RegNo) (w : Half) : List Instr :=
  [.ssr r1 r2, .ss r1 x2 w, .ocr r1 r2, .oc r1 x2 w, .rdr r1 r2, .rd r1 x2 w, .wdr r1 r2, .wd r1 x2 w, .rhr r1 r2,
    .rh r1 x2 w, .whr r1 r2, .wh r1 x2 w, .rbr r1 r2, .rb r1 x2 w, .wbr r1 r2, .wb r1 x2 w]

/-- A list of `n` slots at `a` (49_list_trig_augment.md rule R360): the four header bytes, in the range the rules are
stated for. -/
structure ListAt (s : State) (a : Half) (n used top bot : Byte) : Prop where
  /-- An even address. -/
  even : EvenAddress a
  /-- Number of slots. -/
  slots : s.byteAt s.psw.OB a = n
  /-- Slots in use. -/
  tally : s.byteAt s.psw.OB (a + 1) = used
  /-- Current Top Pointer. -/
  topPointer : s.byteAt s.psw.OB (a + 2) = top
  /-- Next Bottom Pointer. -/
  bottomPointer : s.byteAt s.psw.OB (a + 3) = bot
  /-- No more slots in use than there are. -/
  tallyFits : used.toNat ≤ n.toNat
  /-- The pointers name slots. -/
  pointersFit : n ≠ 0 → top.toNat < n.toNat ∧ bot.toNat < n.toNat

/-- The pointers and the tally of a list agree (49_list_trig_augment.md rule R365). -/
def ListAgrees (n used top bot : Byte) : Prop := (bot.toNat + n.toNat - top.toNat) % n.toNat = used.toNat % n.toNat

/-- What a byte of memory holds after other agents have written: the last of their writes to its address, or else what it
held. -/
def agentByte (ws : List AgentWrite) (p : Nat) (old : Byte) : Byte :=
  match ws.reverse.find? fun w => decide (w.address.toNat = p) with
  | some w => w.value
  | none => old

/-- A byte of memory after other agents have written. -/
def State.byteAfter (s : State) (ws : List AgentWrite) (b : BankNo) (a : Half) : Byte :=
  agentByte ws (physical b a) (s.byteAt b a)

/-- What a launch finds in a byte of memory: the last that the image gives for its address, or else what unlisted memory
reads as (70_reset_and_hazards.md rule R451, log 2). -/
def imageByte (image : List (BitVec 18 × Byte)) (p : Nat) : Byte :=
  match image.reverse.find? fun e => decide (e.1.toNat = p) with
  | some e => e.2
  | none => background

/-- A halfword of memory after other agents have written. -/
def State.halfAfter (s : State) (ws : List AgentWrite) (b : BankNo) (a : Half) : Half :=
  s.byteAfter ws b a ++ s.byteAfter ws b (a + 1)

/-- The header bytes, whatever the values. -/
def Header (s : State) (b : BankNo) (a : Half) (n used top bot : Byte) : Prop :=
  s.byteAt b a = n ∧ s.byteAt b (a + 1) = used ∧ s.byteAt b (a + 2) = top ∧ s.byteAt b (a + 3) = bot

/-- The slot before slot `i` of a list of `n`, the last one before slot 0. -/
def slotBefore (n i : Byte) : Byte := if i = 0 then n - 1 else i - 1

/-- The slot after, slot 0 after the last one. -/
def slotAfter (n i : Byte) : Byte := if i = n - 1 then 0 else i + 1

/-- Memory outside the header bytes that change and one slot is as before. -/
def SameMemoryButList (b : BankNo) (a slot : Half) (s t : State) : Prop :=
  ∀ b' a', ¬ InSpan b (a + 1) 3 b' a' → ¬ InSpan b slot 2 b' a' → t.byteAt b' a' = s.byteAt b' a'

/-- The calls of a read-block transfer of `k` bytes, newest first. -/
def readBlockCalls (d : Byte) : (k : Nat) → List DevCall
  | 0 => []
  | k + 1 => .read d :: .status d :: readBlockCalls d k

/-- The calls of a write-block transfer of `k` bytes, newest first. -/
def writeBlockCalls (s : State) (d : Byte) (a : Half) : (k : Nat) → List DevCall
  | 0 => []
  | k + 1 => .write d (s.byteAt s.psw.OB (a + BitVec.ofNat 16 k)) :: .status d :: writeBlockCalls s d a k

/-- How a block transfer of `n` bytes ends after `k`: all of them with condition code zero, or fewer with the status
nibble that was not zero (48_input_output.md rule R348). A status that is not answered is "device unavailable". -/
def BlockEnds (s t : State) (n k : Nat) : Prop :=
  (∀ j < k, (s.env.statuses.getD j 0x01).extractLsb' 0 4 = 0) ∧
    ((k = n ∧ t.psw.cc.bits = 0) ∨
      (k < n ∧ t.psw.cc.bits = (s.env.statuses.getD k 0x01).extractLsb' 0 4 ∧ t.psw.cc.bits ≠ 0))

/-- A fixed scalar is within `error` of a value in units of 2^-96, as `withinFixed` allows (log 17). -/
def FixedWithin (v : Full) (exact : Int) (error : Nat) : Prop :=
  |v.toInt * 2 ^ 66 - exact| ≤ (error * 2 ^ 66 + 2 ^ 16 : Int)

/-- A fixed scalar is in the range -1.0 to +1.0 inclusive (49_list_trig_augment.md rule R371). -/
def InUnitRange (v : Full) : Prop := -(2 ^ 30) ≤ v.toInt ∧ v.toInt ≤ 2 ^ 30

/-- An angle in BAMS, modulo a turn, is within `error` of the angle, turned by `turn`, that the tests of what is at most
and at least it describe: between its whole part and the next whole number (log 17). -/
def AngleWithin (v : Full) (turn : Int) (atMost atLeast : Int → Bool) (error : Nat) : Prop :=
  ∃ whole a : Int, v = BitVec.ofInt 32 (a + turn) ∧ atMost whole = true ∧ atMost (whole + 1) = false ∧
    a ≤ whole + error ∧ (if atLeast whole = true then whole else whole + 1) ≤ a + error

/-- A root is within `error` of the root of `q`. -/
def RootWithin (v : Full) (q error : Nat) : Prop :=
  0 ≤ v.toInt + error ∧ (q : Int) ≤ (v.toInt + error) ^ 2 ∧
    (v.toInt ≤ error ∨ (v.toInt - error) ^ 2 ≤ (q : Int))

/-- The unassigned operation codes (30_encoding.md rule R103). -/
def unassignedCodes : List Byte :=
  [0x00, 0x13, 0x14, 0x16, 0x17, 0x1e, 0x1f, 0x30, 0x31, 0x32, 0x33, 0x34, 0x35, 0x36, 0x37, 0x3e, 0x3f, 0x54, 0x56,
    0x57, 0x5e, 0x5f, 0x62, 0x63, 0x6e, 0x6f, 0x71, 0x72, 0x73, 0x7e, 0x7f, 0x80, 0x81, 0x82, 0x83, 0x84, 0x85, 0x86,
    0x87, 0x88, 0x89, 0x8a, 0x8b, 0x8c, 0x8d, 0x8e, 0x8f] ++
  [0xa0, 0xa1, 0xa2, 0xa3, 0xa4, 0xa5, 0xa6, 0xa7, 0xa8, 0xa9, 0xaa, 0xab, 0xac, 0xad, 0xae, 0xaf, 0xb0, 0xb1, 0xb2,
    0xb3, 0xb4, 0xb5, 0xb6, 0xb7, 0xb8, 0xb9, 0xba, 0xbb, 0xbc, 0xbd, 0xbe, 0xbf, 0xe0, 0xe5, 0xf0, 0xf1, 0xf2, 0xf3,
    0xf4, 0xf5, 0xf6, 0xf7, 0xfc, 0xfd, 0xfe, 0xff]

/-- An operation code that an installation assigns to no instruction (30_encoding.md rule R103, 00_scope.md rule R4). -/
def IsUnassigned (c : Config.OperationCodes) (op : Byte) : Prop :=
  op ≠ c.aer ∧ op ≠ c.srql ∧ op ≠ c.srqa ∧ op ∈ unassignedCodes ++ [0x2a, 0xe6, 0xe8]

/-- Operation codes an installation can have: three different ones, none of them that of another instruction. -/
def CodesFit (c : Config.OperationCodes) : Prop :=
  c.aer ≠ c.srql ∧ c.aer ≠ c.srqa ∧ c.srql ≠ c.srqa ∧
    ∀ op ∈ [c.aer, c.srql, c.srqa], op ∈ unassignedCodes ++ [0x2a, 0xe6, 0xe8]

/-- The four bytes from the location counter on, in the instruction bank (20_memory.md rules R61, R66). -/
def State.fetchBytes (s : State) : List Byte :=
  [s.byteAt s.psw.IB s.psw.LOC, s.byteAt s.psw.IB (s.psw.LOC + 1), s.byteAt s.psw.IB (s.psw.LOC + 2),
    s.byteAt s.psw.IB (s.psw.LOC + 3)]

/-- The step executes an instruction: operational, not waiting, and no input of the environment is left to arrive. -/
def Quiet (s : State) : Prop := s.power = .operational ∧ s.psw.control.WT = false ∧ s.env.inputs = []

/-- Bytes stand in memory from `a` on in bank `b`. -/
def BytesAt (s : State) (b : BankNo) (a : Half) (bs : List Byte) : Prop :=
  ∀ j (h : j < bs.length), s.byteAt b (a + BitVec.ofNat 16 j) = bs[j]

/-- The environment's next input is `b`, with nothing in it but what the hypotheses of a claim name. -/
def Arrives (s : State) (b : Boundary) : Prop := ∃ rest, s.env.inputs = b :: rest

end Sys2Proof.Machine
end

