-- ==== Sys2Proof/Certificates/Slice0/Obligations.lean ====
section
/-! DEFINITION. The statements for the provers. -/

open Sys2Proof Sys2Proof.Machine

/-- LIS, LCS, LHR, LHI and LDPR put their operand into R1 (or R1, R1+1), G and L show its sign, and nothing but C, V,
G, L and the location counter changes otherwise (40_load_store.md rules R121, R122, R123, R125, R126). -/
def Obligations.ImmediateAndRegisterLoads : Prop :=
  ∀ (s : State) (r1 r2 n x2 : RegNo) (i2 : Half),
    LoadsHalf (.lis r1 n) s r1 (n.setWidth 16) 2 ∧
    LoadsHalf (.lcs r1 n) s r1 (0 - n.setWidth 16) 2 ∧
    LoadsHalf (.lhr r1 r2) s r1 (s.reg r2) 2 ∧
    LoadsHalf (.lhi r1 x2 i2) s r1 (i2 + s.index x2) 4 ∧
    (EvenReg r1 → EvenReg r2 → LoadsFull (.ldpr r1 r2) s r1 (s.pair r2) 2)

/-- LH and LH0 to LH3 load the halfword at an even effective address, through the operand bank or the bank they name;
LDP the fullword there (40_load_store.md rules R124, R127 to R131). Premise of 20_memory.md rules R62 and R76: all
memory fitted, no other agent writing. -/
def Obligations.MemoryLoads : Prop :=
  ∀ (s : State) (r1 x2 : RegNo) (a2 : Half), Undisturbed s → EvenAddress (s.ea x2 a2) →
    LoadsHalf (.lh r1 x2 a2) s r1 (s.halfAt s.psw.OB (s.ea x2 a2)) 4 ∧
    LoadsHalf (.lh0 r1 x2 a2) s r1 (s.halfAt 0 (s.ea x2 a2)) 4 ∧
    LoadsHalf (.lh1 r1 x2 a2) s r1 (s.halfAt 1 (s.ea x2 a2)) 4 ∧
    LoadsHalf (.lh2 r1 x2 a2) s r1 (s.halfAt 2 (s.ea x2 a2)) 4 ∧
    LoadsHalf (.lh3 r1 x2 a2) s r1 (s.halfAt 3 (s.ea x2 a2)) 4 ∧
    (EvenReg r1 → LoadsFull (.ldp r1 x2 a2) s r1 (s.fullAt s.psw.OB (s.ea x2 a2)) 4)

/-- LM loads each register from R1 to 15 with the halfword at its distance from the effective address and changes no
other register, no memory and no flag; STM stores those registers there and changes nothing else (40_load_store.md
rules R132, R133). That LM computes the effective address once is the model's choice (log 30). All memory fitted, no
other agent writing (20_memory.md rules R62, R76). -/
def Obligations.MultipleTransfers : Prop :=
  ∀ (s : State) (r1 x2 : RegNo) (a2 : Half), Undisturbed s → EvenAddress (s.ea x2 a2) →
    (Completes (.lm r1 x2 a2) s fun t =>
      (∀ r : RegNo, r1.toNat ≤ r.toNat →
        t.reg r = s.halfAt s.psw.OB (s.ea x2 a2 + BitVec.ofNat 16 (2 * (r.toNat - r1.toNat)))) ∧
      (∀ r : RegNo, r.toNat < r1.toNat → t.reg r = s.reg r) ∧
      SameMemory s t ∧ SameModes s t ∧ SameUnits s t ∧ t.psw.cc = s.psw.cc ∧ t.psw.LOC = s.psw.LOC + 4) ∧
    Stores (.stm r1 x2 a2) s s.psw.OB (s.ea x2 a2) (2 * (16 - r1.toNat)) fun t =>
      ∀ r : RegNo, r1.toNat ≤ r.toNat →
        t.halfAt s.psw.OB (s.ea x2 a2 + BitVec.ofNat 16 (2 * (r.toNat - r1.toNat))) = s.reg r

/-- Another agent may write between any two transfers of the Processor. With `w1` written before the first of two
transfers, `w2` before the second and all memory fitted: LDP combines the halfword as `w1` leaves it with the next as
`w1` and `w2` leave it; LM of two registers and STDP likewise; AHM adds the halfword as `w1` leaves it and stores the
sum over what `w2` writes there. The queue of those writes is the model's form of the environment's steps
(20_memory.md rules R68, R76, R78, log 35). -/
def Obligations.HalfwordTransfersInterleave : Prop :=
  ∀ (s : State) (r1 x2 : RegNo) (a2 : Half) (w1 w2 : List AgentWrite) (rest : List (List AgentWrite)),
    (∀ p < 262144, isWritable s.install p = true) → s.env.transfers = w1 :: w2 :: rest → EvenAddress (s.ea x2 a2) →
    let a := s.ea x2 a2
    let ob := s.psw.OB
    let first := s.halfAfter w1 ob a
    let second := s.halfAfter (w1 ++ w2) ob (a + 2)
    (EvenReg r1 →
      (Completes (.ldp r1 x2 a2) s fun t =>
        t.pair r1 = first ++ second ∧ t.psw.LOC = s.psw.LOC + 4 ∧ t.env.transfers = rest ∧
          SameRegsBut [r1, r1 + 1] s t ∧ ∀ b' a', t.byteAt b' a' = s.byteAfter (w1 ++ w2) b' a') ∧
      (Completes (.stdp r1 x2 a2) s fun t =>
        t.halfAt ob (a + 2) = s.reg (r1 + 1) ∧ t.psw.LOC = s.psw.LOC + 4 ∧ t.env.transfers = rest ∧ SameRegsBut [] s t ∧
          (∀ k : Half, k.toNat < 2 → t.byteAt ob (a + k) = agentByte w2 (physical ob (a + k))
            (if k = 0 then (s.reg r1).extractLsb' 8 8 else (s.reg r1).extractLsb' 0 8)) ∧
          ∀ b' a', ¬InSpan ob a 4 b' a' → t.byteAt b' a' = s.byteAfter (w1 ++ w2) b' a')) ∧
    (Completes (.lm 14 x2 a2) s fun t =>
      t.reg 14 = first ∧ t.reg 15 = second ∧ t.psw.LOC = s.psw.LOC + 4 ∧ t.env.transfers = rest ∧
        SameRegsBut [14, 15] s t ∧ ∀ b' a', t.byteAt b' a' = s.byteAfter (w1 ++ w2) b' a') ∧
    (Completes (.ahm r1 x2 a2) s fun t =>
      t.halfAt ob a = s.reg r1 + first ∧ ShowsSum t.psw.cc (s.reg r1) first false ∧ t.psw.LOC = s.psw.LOC + 4 ∧
        t.env.transfers = rest ∧ SameRegsBut [] s t ∧
        ∀ b' a', ¬InSpan ob a 2 b' a' → t.byteAt b' a' = s.byteAfter (w1 ++ w2) b' a')

/-- STH, STH0 to STH3, STDP, STB and STE store their first operand at the effective address and change no other byte
of memory, no register and no flag (40_load_store.md rules R134 to R139, 43_byte_handling.md rule R223,
46_floating_point.md rule R289). That STDP's first register goes to the effective address is the spec's reading of a
damaged sentence (rule R139, 90_conflicts.md C17), and where STE finds its register is deduced (10_state.md rule R34,
log 39). Premise of 20_memory.md rules R62 and R76: all memory fitted, no other agent writing. -/
def Obligations.OperandStores : Prop :=
  ∀ (s : State) (r1 x2 : RegNo) (a2 : Half), Undisturbed s →
    (EvenAddress (s.ea x2 a2) →
      Stores (.sth r1 x2 a2) s s.psw.OB (s.ea x2 a2) 2 (fun t => t.halfAt s.psw.OB (s.ea x2 a2) = s.reg r1) ∧
      Stores (.sth0 r1 x2 a2) s 0 (s.ea x2 a2) 2 (fun t => t.halfAt 0 (s.ea x2 a2) = s.reg r1) ∧
      Stores (.sth1 r1 x2 a2) s 1 (s.ea x2 a2) 2 (fun t => t.halfAt 1 (s.ea x2 a2) = s.reg r1) ∧
      Stores (.sth2 r1 x2 a2) s 2 (s.ea x2 a2) 2 (fun t => t.halfAt 2 (s.ea x2 a2) = s.reg r1) ∧
      Stores (.sth3 r1 x2 a2) s 3 (s.ea x2 a2) 2 (fun t => t.halfAt 3 (s.ea x2 a2) = s.reg r1) ∧
      (EvenReg r1 →
        Stores (.stdp r1 x2 a2) s s.psw.OB (s.ea x2 a2) 4 (fun t => t.fullAt s.psw.OB (s.ea x2 a2) = s.pair r1) ∧
        Stores (.ste r1 x2 a2) s s.psw.OB (s.ea x2 a2) 4
          (fun t => t.fullAt s.psw.OB (s.ea x2 a2) = s.fullAt 0 (floatAddress r1)))) ∧
    Stores (.stb r1 x2 a2) s s.psw.OB (s.ea x2 a2) 1
      (fun t => t.byteAt s.psw.OB (s.ea x2 a2) = (s.reg r1).setWidth 8)

/-- AIS, AHR, AH, AHI, ACHR and ACH add into R1, with C the carry, V the signed overflow and G, L the sign of the sum
as stored; the carry flag is added by ACHR and ACH alone. AHM puts the sum into memory. That a flag is reset where no
row of the chart sets it is an inference of the spec, and that ACHR and ACH take G and L from the 16-bit result alone
is the model's choice (41_arithmetic.md rules R150, R157, log 44). For a memory operand: all memory fitted, no other
agent writing (20_memory.md rules R62, R76). -/
def Obligations.HalfwordAdditions : Prop :=
  ∀ (s : State) (r1 r2 n x2 : RegNo) (w : Half),
    AddsHalf (.ais r1 n) s r1 (n.setWidth 16) false 2 ∧
    AddsHalf (.ahr r1 r2) s r1 (s.reg r2) false 2 ∧
    AddsHalf (.ahi r1 x2 w) s r1 (w + s.index x2) false 4 ∧
    AddsHalf (.achr r1 r2) s r1 (s.reg r2) s.psw.cc.C 2 ∧
    (Undisturbed s → EvenAddress (s.ea x2 w) →
      AddsHalf (.ah r1 x2 w) s r1 (s.halfAt s.psw.OB (s.ea x2 w)) false 4 ∧
      AddsHalf (.ach r1 x2 w) s r1 (s.halfAt s.psw.OB (s.ea x2 w)) s.psw.cc.C 4 ∧
      Completes (.ahm r1 x2 w) s fun t =>
        t.halfAt s.psw.OB (s.ea x2 w) = s.reg r1 + s.halfAt s.psw.OB (s.ea x2 w) ∧
        ShowsSum t.psw.cc (s.reg r1) (s.halfAt s.psw.OB (s.ea x2 w)) false ∧
        t.psw.LOC = s.psw.LOC + 4 ∧ StoreFrame s.psw.OB (s.ea x2 w) 2 s t)

/-- SIS, SHR, SH, SHI, SCHR and SCH subtract from R1, with C the borrow, V the signed overflow and G, L the sign of
the difference as stored; the borrow is taken in by SCHR and SCH alone. That C is the borrow is an inference of the
spec, and that SCHR and SCH take G and L from the 16-bit result alone is the model's choice (41_arithmetic.md rules
R151, R157, log 44). For a memory operand: all memory fitted, no other agent writing (20_memory.md rules R62, R76). -/
def Obligations.HalfwordSubtractions : Prop :=
  ∀ (s : State) (r1 r2 n x2 : RegNo) (w : Half),
    SubtractsHalf (.sis r1 n) s r1 (n.setWidth 16) false 2 ∧
    SubtractsHalf (.shr r1 r2) s r1 (s.reg r2) false 2 ∧
    SubtractsHalf (.shi r1 x2 w) s r1 (w + s.index x2) false 4 ∧
    SubtractsHalf (.schr r1 r2) s r1 (s.reg r2) s.psw.cc.C 2 ∧
    (Undisturbed s → EvenAddress (s.ea x2 w) →
      SubtractsHalf (.sh r1 x2 w) s r1 (s.halfAt s.psw.OB (s.ea x2 w)) false 4 ∧
      SubtractsHalf (.sch r1 x2 w) s r1 (s.halfAt s.psw.OB (s.ea x2 w)) s.psw.cc.C 4)

/-- ADPR, ADP, SDPR and SDP add to and subtract from the register pair R1, R1+1, with the flags of the 32-bit result.
The reading of C and of the flags no row sets is an inference of the spec (41_arithmetic.md rules R150, R151). For a
memory operand: all memory fitted, no other agent writing (20_memory.md rules R62, R76). -/
def Obligations.FullwordSums : Prop :=
  ∀ (s : State) (r1 r2 x2 : RegNo) (a2 : Half), EvenReg r1 →
    (EvenReg r2 → AddsFull (.adpr r1 r2) s r1 (s.pair r2) 2 ∧ SubtractsFull (.sdpr r1 r2) s r1 (s.pair r2) 2) ∧
    (Undisturbed s → EvenAddress (s.ea x2 a2) →
      AddsFull (.adp r1 x2 a2) s r1 (s.fullAt s.psw.OB (s.ea x2 a2)) 4 ∧
      SubtractsFull (.sdp r1 x2 a2) s r1 (s.fullAt s.psw.OB (s.ea x2 a2)) 4)

/-- MHUR and MHU leave the exact unsigned product of R1+1 and the second operand in R1, R1+1; MDPR and MDP the exact
signed product of R1+2, R1+3 and the second operand in R1 to R1+3; MHR and MH the exact signed product of the
multiplicand and the second operand in R1, R1+1. The multiplicand of MHR and MH is R1 or R1+1 as the parameter
MH_MULTIPLICAND says; that, and that the R2 of MHR may be odd, are the model's choices (41_arithmetic.md rules R170 to
R175, logs 14 and 10). For a memory operand: all memory fitted, no other agent writing (20_memory.md rules R62, R76).
-/
def Obligations.Products : Prop :=
  ∀ (s : State) (r1 r2 x2 : RegNo) (a2 : Half),
    let m := match s.install.multiplicand with
      | .first => s.reg r1
      | .second => s.reg (r1 + 1)
    (EvenReg r1 →
      WritesPair (.mhr r1 r2) s r1 2 (fun p => p.toInt = m.toInt * (s.reg r2).toInt) ∧
      WritesPair (.mhur r1 r2) s r1 2 (fun p => p.toNat = (s.reg (r1 + 1)).toNat * (s.reg r2).toNat) ∧
      (Undisturbed s → EvenAddress (s.ea x2 a2) →
        WritesPair (.mh r1 x2 a2) s r1 4
          (fun p => p.toInt = m.toInt * (s.halfAt s.psw.OB (s.ea x2 a2)).toInt) ∧
        WritesPair (.mhu r1 x2 a2) s r1 4
          (fun p => p.toNat = (s.reg (r1 + 1)).toNat * (s.halfAt s.psw.OB (s.ea x2 a2)).toNat))) ∧
    (QuadReg r1 →
      (EvenReg r2 → WritesQuad (.mdpr r1 r2) s r1 2
        (fun q => q.toInt = (s.pair (r1 + 2)).toInt * (s.pair r2).toInt)) ∧
      (Undisturbed s → EvenAddress (s.ea x2 a2) → WritesQuad (.mdp r1 x2 a2) s r1 4
        (fun q => q.toInt = (s.pair (r1 + 2)).toInt * (s.fullAt s.psw.OB (s.ea x2 a2)).toInt)))

/-- DHR and DH divide the pair R1, R1+1: the quotient truncated toward zero goes to R1+1, the remainder to R1; DDPR
and DDP divide the doubleword in R1 to R1+3: the quotient to R1+2, R1+3, the remainder to R1, R1+1. A zero divisor or
a quotient magnitude above 2^15 - 1 (2^31 - 1) takes, where DF is set, the Fixed Point Divide Fault with no register
modified: the Old PSW, with the address of the next instruction, to X'0048', the PSW from X'004C'. That the result
registers are left open with DF reset and that the R2 of DHR may be odd are the model's choices (41_arithmetic.md
rules R176 to R180, logs 28 and 10). All memory fitted, no other agent writing (20_memory.md rules R62, R76). -/
def Obligations.Quotients : Prop :=
  ∀ (s : State) (r1 r2 x2 : RegNo) (a2 : Half), Undisturbed s →
    let half := fun (i : Instr) (d len : Half) =>
      Divides i s [r1, r1 + 1] len
        (d ≠ 0 ∧ ((s.pair r1).toInt.tdiv d.toInt).natAbs ≤ 32767)
        (fun t => (t.reg (r1 + 1)).toInt = (s.pair r1).toInt.tdiv d.toInt ∧
          (t.reg r1).toInt = (s.pair r1).toInt.tmod d.toInt)
    let full := fun (i : Instr) (d : Full) (len : Half) =>
      Divides i s [r1, r1 + 1, r1 + 2, r1 + 3] len
        (d ≠ 0 ∧ ((s.quad r1).toInt.tdiv d.toInt).natAbs ≤ 2147483647)
        (fun t => (t.pair (r1 + 2)).toInt = (s.quad r1).toInt.tdiv d.toInt ∧
          (t.pair r1).toInt = (s.quad r1).toInt.tmod d.toInt)
    (EvenReg r1 → half (.dhr r1 r2) (s.reg r2) 2 ∧
      (EvenAddress (s.ea x2 a2) → half (.dh r1 x2 a2) (s.halfAt s.psw.OB (s.ea x2 a2)) 4)) ∧
    (QuadReg r1 → (EvenReg r2 → full (.ddpr r1 r2) (s.pair r2) 2) ∧
      (EvenAddress (s.ea x2 a2) → full (.ddp r1 x2 a2) (s.fullAt s.psw.OB (s.ea x2 a2)) 4))

/-- NHR, NH, NHI, OHR, OH, OHI, XHR, XH and XHI put the bit-by-bit AND, OR and exclusive OR into R1; THI sets the
flags of the AND alone. That G and L are the sign of a nonzero result is a decision of the spec (42_logical_compare.md
rule R190, log 25). For a memory operand: all memory fitted, no other agent writing (20_memory.md rules R62, R76). -/
def Obligations.LogicalResults : Prop :=
  ∀ (s : State) (r1 r2 x2 : RegNo) (w : Half),
    LoadsHalf (.nhr r1 r2) s r1 (s.reg r1 &&& s.reg r2) 2 ∧
    LoadsHalf (.ohr r1 r2) s r1 (s.reg r1 ||| s.reg r2) 2 ∧
    LoadsHalf (.xhr r1 r2) s r1 (s.reg r1 ^^^ s.reg r2) 2 ∧
    LoadsHalf (.nhi r1 x2 w) s r1 (s.reg r1 &&& (w + s.index x2)) 4 ∧
    LoadsHalf (.ohi r1 x2 w) s r1 (s.reg r1 ||| (w + s.index x2)) 4 ∧
    LoadsHalf (.xhi r1 x2 w) s r1 (s.reg r1 ^^^ (w + s.index x2)) 4 ∧
    SetsFlags (.thi r1 x2 w) s 4 (fun c => ShowsSign c (s.reg r1 &&& (w + s.index x2))) ∧
    (Undisturbed s → EvenAddress (s.ea x2 w) →
      LoadsHalf (.nh r1 x2 w) s r1 (s.reg r1 &&& s.halfAt s.psw.OB (s.ea x2 w)) 4 ∧
      LoadsHalf (.oh r1 x2 w) s r1 (s.reg r1 ||| s.halfAt s.psw.OB (s.ea x2 w)) 4 ∧
      LoadsHalf (.xh r1 x2 w) s r1 (s.reg r1 ^^^ s.halfAt s.psw.OB (s.ea x2 w)) 4)

/-- CLHR, CLH, CLHI, CLDPR and CLDP set C where the first operand is the smaller as an unsigned number, and G, L by
the sign of the difference; CHR, CH, CHI, CDPR and CDP set G and L by the signed order of the operands and C where the
first is the smaller. Nothing else changes. That G and L of a logical compare are that sign is a decision of the spec,
and that C of an algebraic one is the signed "less" its reading of the chart (42_logical_compare.md rules R201, R202,
log 25). For a memory operand: all memory fitted, no other agent writing (20_memory.md rules R62, R76). -/
def Obligations.Compares : Prop :=
  ∀ (s : State) (r1 r2 x2 : RegNo) (w : Half),
    SetsFlags (.clhr r1 r2) s 2 (fun c => ShowsLogical c (s.reg r1) (s.reg r2)) ∧
    SetsFlags (.clhi r1 x2 w) s 4 (fun c => ShowsLogical c (s.reg r1) (w + s.index x2)) ∧
    SetsFlags (.chr r1 r2) s 2 (fun c => ShowsOrder c (s.reg r1) (s.reg r2)) ∧
    SetsFlags (.chi r1 x2 w) s 4 (fun c => ShowsOrder c (s.reg r1) (w + s.index x2)) ∧
    (EvenReg r1 → EvenReg r2 →
      SetsFlags (.cldpr r1 r2) s 2 (fun c => ShowsLogical c (s.pair r1) (s.pair r2)) ∧
      SetsFlags (.cdpr r1 r2) s 2 (fun c => ShowsOrder c (s.pair r1) (s.pair r2))) ∧
    (Undisturbed s → EvenAddress (s.ea x2 w) →
      SetsFlags (.clh r1 x2 w) s 4 (fun c => ShowsLogical c (s.reg r1) (s.halfAt s.psw.OB (s.ea x2 w))) ∧
      SetsFlags (.ch r1 x2 w) s 4 (fun c => ShowsOrder c (s.reg r1) (s.halfAt s.psw.OB (s.ea x2 w))) ∧
      (EvenReg r1 →
        SetsFlags (.cldp r1 x2 w) s 4 (fun c => ShowsLogical c (s.pair r1) (s.fullAt s.psw.OB (s.ea x2 w))) ∧
        SetsFlags (.cdp r1 x2 w) s 4 (fun c => ShowsOrder c (s.pair r1) (s.fullAt s.psw.OB (s.ea x2 w)))))

/-- Memory that is not there: an operand, a list header, a floating-point register, an Old or New PSW or a pointer of
which a byte stands outside MEM_PRESENT stops the instructions named here, the model's form of an unspecified access.
Memory that can not be written: where every byte that STB, STH, STH0 to STH3, STDP, STM or STE stores to is in
MEM_READONLY it changes nothing but the location counter, and AHM then nothing but that and the condition code, which
shows the sum all the same. No other agent writes during those stores. That what is present and what is read-only are
parameters is log 1, and the form of the stop log 50 (20_memory.md rule R62). -/
def Obligations.UnfittedMemory : Prop :=
  ∀ (s : State) (r1 r2 x2 : RegNo) (w : Half) (d : Byte),
    let a := s.ea x2 w
    let ob := s.psw.OB
    let stop := fun (is : List Instr) => ∀ i ∈ is, exec i s = .refused .absentMemory
    let passes := fun (i : Instr) => GoesTo i s (s.psw.LOC + 4)
    (Absent s ob a 1 → stop [.lb r1 x2 w, .stb r1 x2 w, .clb r1 x2 w]) ∧
    (EvenAddress a →
      (Absent s ob a 2 →
        stop [.lh r1 x2 w, .sth r1 x2 w, .ah r1 x2 w, .ahm r1 x2 w, .ach r1 x2 w, .sh r1 x2 w, .sch r1 x2 w,
          .nh r1 x2 w, .oh r1 x2 w, .xh r1 x2 w, .clh r1 x2 w, .ch r1 x2 w, .lch r1 x2 w, .lcnh r1 x2 w, .lav r1 x2 w] ∧
        (EvenReg r1 → stop [.mh r1 x2 w, .mhu r1 x2 w, .dh r1 x2 w])) ∧
      (Absent s 0 a 2 → stop [.lh0 r1 x2 w, .sth0 r1 x2 w]) ∧ (Absent s 1 a 2 → stop [.lh1 r1 x2 w, .sth1 r1 x2 w]) ∧
      (Absent s 2 a 2 → stop [.lh2 r1 x2 w, .sth2 r1 x2 w]) ∧ (Absent s 3 a 2 → stop [.lh3 r1 x2 w, .sth3 r1 x2 w]) ∧
      (Absent s ob a (2 * (16 - r1.toNat)) → stop [.lm r1 x2 w, .stm r1 x2 w]) ∧
      (Absent s ob a 4 →
        (EvenReg r1 → stop [.ldp r1 x2 w, .stdp r1 x2 w, .adp r1 x2 w, .sdp r1 x2 w, .cldp r1 x2 w, .cdp r1 x2 w,
          .le r1 x2 w, .ste r1 x2 w, .ae r1 x2 w, .se r1 x2 w, .ce r1 x2 w, .me r1 x2 w, .de r1 x2 w]) ∧
        (QuadReg r1 → stop [.mdp r1 x2 w, .ddp r1 x2 w, .cos r1 x2 w])) ∧
      (Absent s ob a 8 → (EvenReg r1 → stop [.asn r1 x2 w, .sqd r1 x2 w]) ∧ (QuadReg r1 → stop [.atn r1 x2 w])) ∧
      (Absent s ob a 3 → stop [.atl r1 x2 w, .rtl r1 x2 w]) ∧
      (Absent s ob a 2 ∨ Absent s ob (a + 3) 1 → stop [.abl r1 x2 w, .rbl r1 x2 w])) ∧
    (EvenReg r1 → Absent s 0 (floatAddress r1) 4 →
      (EvenReg r2 → stop [.ler r1 r2, .aer r1 r2, .ser r1 r2, .cer r1 r2, .mer r1 r2, .der r1 r2]) ∧
      (EvenAddress a →
        stop [.le r1 x2 w, .ste r1 x2 w, .ae r1 x2 w, .se r1 x2 w, .ce r1 x2 w, .me r1 x2 w, .de r1 x2 w])) ∧
    (s.psw.control.PM = false →
      (EvenAddress a → Absent s ob a 4 → stop [.lpsw 0 x2 w]) ∧ (Absent s ob a 1 → stop [.ai r1 x2 w]) ∧
      (s.reg r1 = d.setWidth 16 →
        (Absent s ob a 1 → stop [.ss r1 x2 w, .oc r1 x2 w, .rd r1 x2 w, .wd r1 x2 w]) ∧
        (EvenAddress a → Absent s ob a 2 → stop [.rh r1 x2 w, .wh r1 x2 w]) ∧
        (EvenAddress a → Absent s ob a 4 → stop [.rb r1 x2 w, .wb r1 x2 w])) ∧
      (ob = 0 → 0x80 ≤ a.toNat → Absent s 0 0x0078 2 → stop [.al 0 x2 w]) ∧
      (Absent s 0 (0x00d0 + 2 * (a &&& 0x00ff)) 2 → stop [.sint 0 x2 w])) ∧
    (s.psw.control.PM = true → Absent s 0 0x0030 8 → stop (privilegedSet r1 r2 w)) ∧
    (Absent s 0 0x0094 8 ∨ Absent s 0 (0x009c + BitVec.ofNat 16 (2 * r1.toNat)) 2 → stop [.svc r1 x2 w]) ∧
    (s.env.transfers = [] →
      (ReadOnly s ob a 1 → passes (.stb r1 x2 w)) ∧
      (EvenAddress a →
        (ReadOnly s 0 a 2 → passes (.sth0 r1 x2 w)) ∧ (ReadOnly s 1 a 2 → passes (.sth1 r1 x2 w)) ∧
        (ReadOnly s 2 a 2 → passes (.sth2 r1 x2 w)) ∧ (ReadOnly s 3 a 2 → passes (.sth3 r1 x2 w)) ∧
        (ReadOnly s ob a 2 → passes (.sth r1 x2 w) ∧
          SetsFlags (.ahm r1 x2 w) s 4 fun c => ShowsSum c (s.reg r1) (s.halfAt ob a) false) ∧
        (ReadOnly s ob a (2 * (16 - r1.toNat)) → passes (.stm r1 x2 w)) ∧
        (EvenReg r1 → ReadOnly s ob a 4 →
          passes (.stdp r1 x2 w) ∧ (¬Absent s 0 (floatAddress r1) 4 → passes (.ste r1 x2 w)))))

/-- LBR, LB, STBR and EXBR move bytes into a register and leave the condition code as it was, STBR writing the low
byte of R2 alone; CLB compares the low byte of R1 with a byte of memory: C is set where it is the smaller, equal bytes
reset G and L, unequal bytes set exactly one of them (43_byte_handling.md rules R220, R221, R222, R224, R225). For a
memory operand: all memory fitted, no other agent writing (20_memory.md rules R62, R76). -/
def Obligations.ByteInstructions : Prop :=
  ∀ (s : State) (r1 r2 x2 : RegNo) (a2 : Half),
    WritesHalf (.lbr r1 r2) s r1 (s.reg r2 &&& 0x00ff) 2 ∧
    WritesHalf (.stbr r1 r2) s r2 ((s.reg r2 &&& 0xff00) ||| (s.reg r1 &&& 0x00ff)) 2 ∧
    WritesHalf (.exbr r1 r2) s r1 ((s.reg r2 <<< 8) ||| (s.reg r2 >>> 8)) 2 ∧
    (Undisturbed s →
      WritesHalf (.lb r1 x2 a2) s r1 ((s.byteAt s.psw.OB (s.ea x2 a2)).setWidth 16) 4 ∧
      let a : Byte := (s.reg r1).setWidth 8
      let b := s.byteAt s.psw.OB (s.ea x2 a2)
      SetsFlags (.clb r1 x2 a2) s 4 fun c =>
        (c.C = true ↔ a.toNat < b.toNat) ∧ (a = b → c.G = false ∧ c.L = false) ∧ (a ≠ b → c.L = !c.G))

/-- The four list instructions keep the conditions of a list: pointers that name slots, a tally of at most the slots,
and `(bot - top) mod n = used mod n` (49_list_trig_augment.md rule R365(a), derived there). All memory fitted, no
other agent writing (20_memory.md rules R62, R76). -/
def Obligations.ListsKeepTheirInvariant : Prop :=
  ∀ (s : State) (r1 x2 : RegNo) (a2 : Half) (n used top bot : Byte), Undisturbed s →
    ListAt s (s.ea x2 a2) n used top bot → ListAgrees n used top bot →
    ∀ i ∈ [Instr.atl r1 x2 a2, .abl r1 x2 a2, .rtl r1 x2 a2, .rbl r1 x2 a2],
      Completes i s fun t => ∃ used' top' bot', ListAt t (s.ea x2 a2) n used' top' bot' ∧ ListAgrees n used' top' bot'

/-- SLLS, SLHL, SRLS, SRHL, SLHA and SRHA shift R1 by zero to 15 positions: C holds the last bit shifted out, V is
reset, G and L show the sign of the result; the arithmetic shifts keep the sign bit (44_shift_rotate.md rules R232 to
R237). -/
def Obligations.HalfwordShifts : Prop :=
  ∀ (s : State) (r1 n x2 : RegNo) (i2 : Half),
    let v := s.reg r1
    let k := n.toNat
    let m := (i2 + s.index x2).toNat % 16
    ShiftsHalf (.slls r1 n) s r1 (v <<< k) k (v.getLsbD (16 - k)) 2 ∧
    ShiftsHalf (.srls r1 n) s r1 (v >>> k) k (v.getLsbD (k - 1)) 2 ∧
    ShiftsHalf (.slhl r1 x2 i2) s r1 (v <<< m) m (v.getLsbD (16 - m)) 4 ∧
    ShiftsHalf (.srhl r1 x2 i2) s r1 (v >>> m) m (v.getLsbD (m - 1)) 4 ∧
    ShiftsHalf (.slha r1 x2 i2) s r1 ((v &&& 0x8000) ||| ((v <<< m) &&& 0x7fff)) m (v.getLsbD (15 - m)) 4 ∧
    ShiftsHalf (.srha r1 x2 i2) s r1 (v.sshiftRight m) m (v.getLsbD (m - 1)) 4

/-- SLL, SRL, SLA and SRA shift the pair R1, R1+1 by zero to 31 positions, and SLQL, SRQL, SLQA and SRQA the four
registers R1 to R1+3 by zero to 63: C holds the last bit shifted out, V is reset, G and L show the sign of the result
(44_shift_rotate.md rules R238 to R241, R244 to R247). That SRL's last bit comes out of R1+1 is the spec's resolution
of a copied sentence (rule R239, 90_conflicts.md C15), and that SLQA keeps the sign bit its inference (rule R246). -/
def Obligations.WideShifts : Prop :=
  ∀ (s : State) (r1 x2 : RegNo) (i2 : Half),
    (EvenReg r1 →
      let v := s.pair r1
      let m := (i2 + s.index x2).toNat % 32
      ShiftsFull (.sll r1 x2 i2) s r1 (v <<< m) m (v.getLsbD (32 - m)) ∧
      ShiftsFull (.srl r1 x2 i2) s r1 (v >>> m) m (v.getLsbD (m - 1)) ∧
      ShiftsFull (.sla r1 x2 i2) s r1 ((v &&& 0x80000000) ||| ((v <<< m) &&& 0x7fffffff)) m (v.getLsbD (31 - m)) ∧
      ShiftsFull (.sra r1 x2 i2) s r1 (v.sshiftRight m) m (v.getLsbD (m - 1))) ∧
    (QuadReg r1 →
      let v := s.quad r1
      let m := (i2 + s.index x2).toNat % 64
      ShiftsDouble (.slql r1 x2 i2) s r1 (v <<< m) m (v.getLsbD (64 - m)) ∧
      ShiftsDouble (.srql r1 x2 i2) s r1 (v >>> m) m (v.getLsbD (m - 1)) ∧
      ShiftsDouble (.slqa r1 x2 i2) s r1
        ((v &&& 0x8000000000000000) ||| ((v <<< m) &&& 0x7fffffffffffffff)) m (v.getLsbD (63 - m)) ∧
      ShiftsDouble (.srqa r1 x2 i2) s r1 (v.sshiftRight m) m (v.getLsbD (m - 1)))

/-- A product or quotient of normalized operands, where it is a number, has the sign of the rule, and its 24-bit
fraction is the exact one rounded: off by at most half a unit of the last bit with the reference arithmetic, by less
than a unit with any function that an installation can have (46_floating_point.md rules R285, R286). The exponents are
raised to be natural numbers. Which functions an installation can have is the model's reading (log 15). -/
def Obligations.FloatProductsAreRounded : Prop :=
  ∀ (s : State) (a b : Full) (neg : Bool) (e : Int) (f : Nat), isNormalized a = true → isNormalized b = true →
    let p := unpackFloat a
    let q := unpackFloat b
    (s.fpMul a b = .num neg e f →
      let exact : Int := p.frac * q.frac * 16 ^ (p.exp + q.exp + 200).toNat
      let rounded : Int := f * 2 ^ 24 * 16 ^ (e + 200).toNat
      let unit : Int := 2 ^ 24 * 16 ^ (e + 200).toNat
      neg = (p.neg != q.neg) ∧ |rounded - exact| < unit ∧
        (s.install.floatUnit = .reference → 2 * |rounded - exact| ≤ unit)) ∧
    (s.fpDiv a b = .num neg e f →
      let exact : Int := p.frac * 2 ^ 24 * 16 ^ (p.exp + 200).toNat
      let rounded : Int := f * q.frac * 16 ^ (e + q.exp + 200).toNat
      let unit : Int := q.frac * 16 ^ (e + q.exp + 200).toNat
      neg = (p.neg != q.neg) ∧ |rounded - exact| < unit ∧
        (s.install.floatUnit = .reference → 2 * |rounded - exact| ≤ unit))

/-- RLL and RRL rotate the pair R1, R1+1 end around by zero to 31 positions and reset C and V. That G and L are the
sign of a nonzero result is a decision of the spec (44_shift_rotate.md rules R242, R243, log 25). -/
def Obligations.PairRotates : Prop :=
  ∀ (s : State) (r1 x2 : RegNo) (i2 : Half), EvenReg r1 →
    let v := s.pair r1
    let m := (i2 + s.index x2).toNat % 32
    Rotates (.rll r1 x2 i2) s r1 ((v <<< m) ||| (v >>> (32 - m))) ∧
    Rotates (.rrl r1 x2 i2) s r1 ((v >>> m) ||| (v <<< (32 - m)))

/-- The eight conditional branches change the location counter alone: to the branch address where the condition code
under the mask says so, and otherwise past the branch; the short ones count halfwords from their own address
(45_branch.md rules R260, R262 to R269). -/
def Obligations.ConditionalBranches : Prop :=
  ∀ (s : State) (m1 r2 n x2 : RegNo) (a2 : Half),
    let taken := Selected s.psw.cc m1
    let pc := s.psw.LOC
    let d : Half := BitVec.ofNat 16 (2 * n.toNat)
    GoesTo (.btcr m1 r2) s (if taken then s.reg r2 else pc + 2) ∧
    GoesTo (.btc m1 x2 a2) s (if taken then s.ea x2 a2 else pc + 4) ∧
    GoesTo (.bfcr m1 r2) s (if taken then pc + 2 else s.reg r2) ∧
    GoesTo (.bfc m1 x2 a2) s (if taken then pc + 4 else s.ea x2 a2) ∧
    GoesTo (.btbs m1 n) s (if taken then pc - d else pc + 2) ∧
    GoesTo (.btfs m1 n) s (if taken then pc + d else pc + 2) ∧
    GoesTo (.bfbs m1 n) s (if taken then pc + 2 else pc - d) ∧
    GoesTo (.bffs m1 n) s (if taken then pc + 2 else pc + d)

/-- BXH and BXLE add R1+1 to R1 and branch where the new index is above (BXH) or not above (BXLE) the limit in R1+2;
the branch address is that of the index before; the comparison is unsigned or signed as the parameter BX_COMPARE says,
which is the model's form of an open point (45_branch.md rules R270, R271, log 13). BALR and BAL leave the address of
the next instruction in R1 and go to the second operand as it was before (rules R272, R273). -/
def Obligations.IndexAndLinkBranches : Prop :=
  ∀ (s : State) (r1 r2 x2 : RegNo) (a2 : Half),
    (r1.toNat ≤ 13 →
      let i := s.reg r1 + s.reg (r1 + 1)
      let limit := s.reg (r1 + 2)
      let high := match s.install.indexCompare with
        | .logical => decide (limit.toNat < i.toNat)
        | .signed => decide (limit.toInt < i.toInt)
      (Completes (.bxh r1 x2 a2) s fun t =>
        t.reg r1 = i ∧ t.psw.LOC = (if high then s.ea x2 a2 else s.psw.LOC + 4) ∧ t.psw.cc = s.psw.cc ∧
          RegisterFrame [r1] s t) ∧
      (Completes (.bxle r1 x2 a2) s fun t =>
        t.reg r1 = i ∧ t.psw.LOC = (if high then s.psw.LOC + 4 else s.ea x2 a2) ∧ t.psw.cc = s.psw.cc ∧
          RegisterFrame [r1] s t)) ∧
    (Completes (.balr r1 r2) s fun t =>
      t.reg r1 = s.psw.LOC + 2 ∧ t.psw.LOC = s.reg r2 ∧ t.psw.cc = s.psw.cc ∧ RegisterFrame [r1] s t) ∧
    (Completes (.bal r1 x2 a2) s fun t =>
      t.reg r1 = s.psw.LOC + 4 ∧ t.psw.LOC = a2 + s.index x2 ∧ t.psw.cc = s.psw.cc ∧ RegisterFrame [r1] s t)

/-- Between instructions, with the input `b` of the environment, no DMA write in it and nothing else asserted: a
termination pointer just stored, an entry in the Termination Queue and PSW bit 6 set take the Channel Termination
exchange; a pointer that found the queue full goes to X'008A' and takes the Queue Overflow exchange with whatever PSW;
where one of the three is missing, bit 6 above all, and no pointer found the queue full, there is no interrupt: the
wait state goes on, and otherwise the instruction at the location counter is executed. The form of the input is the
model's (60_exceptions.md rules R403, R416, R417, logs 19 and 21). All memory fitted, no other agent writing
(20_memory.md rules R62, R76). -/
def Obligations.ChannelInterrupts : Prop :=
  ∀ (s : State) (b : Boundary), Undisturbed s → Arrives s b → b.dma = [] → b.attention = false → b.parity = .none →
    b.power = .none → s.power = .operational →
    let ct := s.psw.control.CT
    let loc := s.psw.LOC
    (b.overflow = none → b.termination = true → b.queueEntry = true → ct = true →
      ∃ t, step s = .next t ∧ Exchanges s.arrived t 0x0082 0x0086 loc) ∧
    (b.overflow = none → ¬(b.termination = true ∧ b.queueEntry = true ∧ ct = true) →
      (s.psw.control.WT = true → step s = .next s.arrived) ∧
      (s.psw.control.WT = false → EvenAddress s.psw.LOC →
        ∀ i rest, decodeWith s.install.codes s.fetchBytes = .ok (i, rest) → step s = exec i s.arrived)) ∧
    (∀ p, b.overflow = some p → ¬(b.termination = true ∧ b.queueEntry = true ∧ ct = true) →
      ∃ t, step s = .next t ∧ t.halfAt 0 0x008a = p ∧ t.fullAt 0 0x008c = s.psw.status ++ loc ∧
        t.psw.full = s.fullAt 0 0x0090 ∧ ExchangeFrame 0x008a 6 s.arrived t)

/-- LER and LE normalize the operand into R1: a zero fraction gives true zero; otherwise the fraction is shifted left by
the `k` digits that bring its first digit up, the exponent falling by `k`, unless that underflows, which gives true zero
with V and, with FP set, the fault after the result. That order is a decision of the spec (46_floating_point.md rules
R283, R287, R288, log 29). All memory fitted, no other agent writing (20_memory.md rules R62, R76). -/
def Obligations.FloatLoadResults : Prop :=
  ∀ (s : State) (r1 r2 x2 : RegNo) (a2 : Half), Undisturbed s → EvenReg r1 →
    (EvenReg r2 → FloatLoads (.ler r1 r2) s r1 (s.floatReg r2) 2) ∧
    (EvenAddress (s.ea x2 a2) → FloatLoads (.le r1 x2 a2) s r1 (s.fullAt s.psw.OB (s.ea x2 a2)) 4)

/-- AER, AE, SER, SE, MER, ME, DER and DE on normalized operands deliver the outcome of the installation's `fp_add`,
`fp_sub`, `fp_mul` or `fp_div`, by default that of the reference arithmetic, to R1 and the flags; on a fault outcome
with FP set they then take the Floating-Point Arithmetic Fault: the Old PSW, with the address of the next instruction,
to X'0028', the PSW from X'002C'. A zero divisor leaves R1 as it was and sets C. That the reference arithmetic is the
default is a decision of the spec (log 15); that result and flags come before the exchange, and that a zero operand is
tested before the exponents, are the model's reading of it (46_floating_point.md rules R283 to R286, R290, R296, R298,
log 29). All memory fitted, no other agent writing (20_memory.md rules R62, R76). -/
def Obligations.FloatArithmeticResults : Prop :=
  ∀ (s : State) (r1 r2 x2 : RegNo) (a2 : Half), Undisturbed s → EvenReg r1 → isNormalized (s.floatReg r1) = true →
    let a := s.floatReg r1
    (EvenReg r2 → isNormalized (s.floatReg r2) = true →
      let b := s.floatReg r2
      FloatArithmetic (.aer r1 r2) s r1 (s.fpAdd a b) 2 (SumChart (s.fpAdd a b)) ∧
      FloatArithmetic (.ser r1 r2) s r1 (s.fpSub a b) 2 (SumChart (s.fpSub a b)) ∧
      FloatArithmetic (.mer r1 r2) s r1 (s.fpMul a b) 2 (fun _ => True) ∧
      FloatArithmetic (.der r1 r2) s r1 (s.fpDiv a b) 2 (QuotientChart (s.fpDiv a b))) ∧
    (EvenAddress (s.ea x2 a2) → isNormalized (s.fullAt s.psw.OB (s.ea x2 a2)) = true →
      let b := s.fullAt s.psw.OB (s.ea x2 a2)
      FloatArithmetic (.ae r1 x2 a2) s r1 (s.fpAdd a b) 4 (SumChart (s.fpAdd a b)) ∧
      FloatArithmetic (.se r1 x2 a2) s r1 (s.fpSub a b) 4 (SumChart (s.fpSub a b)) ∧
      FloatArithmetic (.me r1 x2 a2) s r1 (s.fpMul a b) 4 (fun _ => True) ∧
      FloatArithmetic (.de r1 x2 a2) s r1 (s.fpDiv a b) 4 (QuotientChart (s.fpDiv a b))) ∧
    (s.install.floatUnit = .reference → ∀ a b, s.fpAdd a b = floatAdd a b ∧ s.fpSub a b = floatSub a b ∧
      s.fpMul a b = floatMul a b ∧ s.fpDiv a b = floatDiv a b)

/-- CER and CE set C and L where the value of the first operand is the smaller and G where it is the greater, on
normalized operands; nothing else changes (46_floating_point.md rules R294, R295).
All memory fitted, no other agent writing (20_memory.md rules R62, R76). -/
def Obligations.FloatCompares : Prop :=
  ∀ (s : State) (r1 r2 x2 : RegNo) (a2 : Half), Undisturbed s → EvenReg r1 → isNormalized (s.floatReg r1) = true →
    let a := floatValue (s.floatReg r1)
    (EvenReg r2 → isNormalized (s.floatReg r2) = true → SetsFlags (.cer r1 r2) s 2 fun c =>
      let b := floatValue (s.floatReg r2)
      (c.C = true ↔ a < b) ∧ (c.G = true ↔ b < a) ∧ (c.L = true ↔ a < b)) ∧
    (EvenAddress (s.ea x2 a2) → isNormalized (s.fullAt s.psw.OB (s.ea x2 a2)) = true →
      SetsFlags (.ce r1 x2 a2) s 4 fun c =>
        let b := floatValue (s.fullAt s.psw.OB (s.ea x2 a2))
        (c.C = true ↔ a < b) ∧ (c.G = true ↔ b < a) ∧ (c.L = true ↔ a < b))

/-- On an operand that is not normalized the ten arithmetic and compare instructions complete all the same: they write
nothing but R1 (a compare nothing) and flags, and take no interrupt. That they complete is the laxer model that
93_implementation_defined.md U4 names (46_floating_point.md rule R282, log 16), the model's choice where the strict one
stops. All memory fitted, no other agent writing (20_memory.md rules R62, R76). -/
def Obligations.FloatUnnormalized : Prop :=
  ∀ (s : State) (r1 r2 x2 : RegNo) (a2 : Half), Undisturbed s → EvenReg r1 →
    (EvenReg r2 → ¬(isNormalized (s.floatReg r1) = true ∧ isNormalized (s.floatReg r2) = true) →
      FloatOpen (.aer r1 r2) s r1 2 ∧ FloatOpen (.ser r1 r2) s r1 2 ∧ FloatOpen (.mer r1 r2) s r1 2 ∧
      FloatOpen (.der r1 r2) s r1 2 ∧ SetsFlags (.cer r1 r2) s 2 fun _ => True) ∧
    (EvenAddress (s.ea x2 a2) →
      ¬(isNormalized (s.floatReg r1) = true ∧ isNormalized (s.fullAt s.psw.OB (s.ea x2 a2)) = true) →
      FloatOpen (.ae r1 x2 a2) s r1 4 ∧ FloatOpen (.se r1 x2 a2) s r1 4 ∧ FloatOpen (.me r1 x2 a2) s r1 4 ∧
      FloatOpen (.de r1 x2 a2) s r1 4 ∧ SetsFlags (.ce r1 x2 a2) s 4 fun _ => True)

/-- Every number that the arithmetic of normalized operands and the load of any word deliver, whatever the
installation, is normalized and has an exponent in range (46_floating_point.md rule R283), so the register it goes to
is normalized. Which functions an installation can have is the model's reading (log 15). -/
def Obligations.FloatResultsAreNormalized : Prop :=
  ∀ (s : State) (a b w : Full) (neg : Bool) (e : Int) (f : Nat), isNormalized a = true → isNormalized b = true →
    (s.fpAdd a b = .num neg e f ∨ s.fpSub a b = .num neg e f ∨ s.fpMul a b = .num neg e f ∨
      s.fpDiv a b = .num neg e f ∨ floatLoad w = .num neg e f) →
    FloatInRange e f ∧ isNormalized (packFloat neg e f) = true ∧ unpackFloat (packFloat neg e f) = ⟨neg, e, f⟩

/-- A sum or difference that shifts no digit out is exact, whichever operand has the greater exponent and whatever the
installation: where the fraction of the smaller exponent loses no digit when it is aligned, and the sum none to a
carry, the value of the result is the sum, or the difference, of the values (46_floating_point.md rule R284: "an
exactly representable sum with no digit shifted out is exact"). Which functions an installation can have is the
model's reading (log 15). -/
def Obligations.FloatSumsAreExact : Prop :=
  ∀ (s : State) (a b : Full) (neg : Bool) (e : Int) (f : Nat),
    let lossless := fun (b : Full) =>
      let p := unpackFloat a
      let q := unpackFloat b
      let big := if p.exp < q.exp then q else p
      let small := if p.exp < q.exp then p else q
      let k := (big.exp - small.exp).toNat
      let f := big.frac + small.frac / 16 ^ k
      16 ^ k ∣ small.frac ∧ (p.neg = q.neg → f < 2 ^ 24 ∨ 16 ∣ f)
    (lossless b → s.fpAdd a b = .num neg e f → floatValue (packFloat neg e f) = floatValue a + floatValue b) ∧
    (lossless (b ^^^ 0x80000000) → s.fpSub a b = .num neg e f →
      floatValue (packFloat neg e f) = floatValue a - floatValue b)

/-- The thirteen unimplemented 48-bit floating-point codes change nothing but the location counter. The lengths are a
decision of the spec (46_floating_point.md rule R301, log 37). -/
def Obligations.NoOperations : Prop :=
  ∀ (s : State) (r1 r2 : RegNo) (w : Half),
    (∀ i ∈ [Instr.lfr r1 r2, .cfr r1 r2, .afr r1 r2, .sfr r1 r2, .mfr r1 r2, .dfr r1 r2],
      GoesTo i s (s.psw.LOC + 2)) ∧
    (∀ i ∈ [Instr.stf r1 r2 w, .lf r1 r2 w, .cf r1 r2 w, .af r1 r2 w, .sf r1 r2 w, .mf r1 r2 w, .df r1 r2 w],
      GoesTo i s (s.psw.LOC + 4))

/-- In Supervisor Mode LPSW loads every bit of the PSW from memory, and EPSR exchanges the status with registers, R1
written before R2 is read; both then examine the loaded bit 6 and the Termination Queue. In Protect Mode neither has
an effect: they take the violation. That LPSW stops with an R1 field that is not zero and with an odd operand address
is the model's form of those two unspecified cases (logs 8 and 11), and the queue's entry an input of the environment
(log 21) (47_system_control.md rules R310, R311, R316). All memory fitted, no other agent writing (20_memory.md rules
R62, R76). -/
def Obligations.StatusLoads : Prop :=
  ∀ (s : State) (r1 r2 x2 : RegNo) (a2 : Half), Undisturbed s →
    (s.psw.control.PM = false →
      (EvenAddress (s.ea x2 a2) → LoadsStatus (.lpsw 0 x2 a2) s [] fun t =>
        t.psw.full = s.fullAt s.psw.OB (s.ea x2 a2)) ∧
      (¬EvenAddress (s.ea x2 a2) → exec (.lpsw 0 x2 a2) s = .fault .oddOperandAddress) ∧
      (r1 ≠ 0 → exec (.lpsw r1 x2 a2) s = .refused (.mustBeZero .R1)) ∧
      LoadsStatus (.epsr r1 r2) s [r1] fun t =>
        t.reg r1 = s.psw.status ∧ t.psw.status = (if r1 = r2 then s.psw.status else s.reg r2) ∧
          t.psw.LOC = s.psw.LOC + 2) ∧
    (s.psw.control.PM = true → ∀ i ∈ [Instr.lpsw r1 x2 a2, .epsr r1 r2],
      Completes i s fun t => Exchanges s t 0x0030 0x0034 s.psw.LOC)

/-- SINT takes the steps of the Immediate Interrupt with the device number of its operand: the Old PSW, with the
location counter of the next instruction, to the Service Pointer, the status from four bytes on, the routine at six
bytes on. An odd Service Pointer, a Channel Command Word, stops (log 21). The saved location counter, bank 0 and that
EI and AS are not tested are decisions of the spec (47_system_control.md rule R312, logs 22, 23 and 47). All memory
fitted, no other agent writing (20_memory.md rules R62, R76). -/
def Obligations.SimulatedInterrupts : Prop :=
  ∀ (s : State) (x2 : RegNo) (i2 : Half), Undisturbed s → s.psw.control.PM = false →
    let d := (i2 + s.index x2) &&& 0x00ff
    let sp := s.halfAt 0 (0x00d0 + 2 * d)
    (EvenAddress sp → Completes (.sint 0 x2 i2) s fun t =>
      t.fullAt 0 sp = s.psw.status ++ (s.psw.LOC + 4) ∧ t.psw.status = s.halfAt 0 (sp + 4) ∧ t.psw.LOC = sp + 6 ∧
        ExchangeFrame sp 4 s t) ∧
    (¬EvenAddress sp → exec (.sint 0 x2 i2) s = .refused .channelCommandWord)

/-- SVC, in both modes, stores its operand value at X'0094' and the Old PSW at X'0096', takes the status from X'009A'
and the location counter from the entry of its R1 field. The saved location counter, that of the next instruction, is
a decision of the spec (47_system_control.md rule R313, log 22). All memory fitted, no other agent writing
(20_memory.md rules R62, R76). -/
def Obligations.SupervisorCalls : Prop :=
  ∀ (s : State) (r1 x2 : RegNo) (i2 : Half), Undisturbed s →
    Completes (.svc r1 x2 i2) s fun t =>
      t.halfAt 0 0x0094 = i2 + s.index x2 ∧ t.fullAt 0 0x0096 = s.psw.status ++ (s.psw.LOC + 4) ∧
        t.psw.status = s.halfAt 0 0x009a ∧ t.psw.LOC = s.halfAt 0 (0x009c + BitVec.ofNat 16 (2 * r1.toNat)) ∧
        ExchangeFrame 0x0094 6 s t

/-- EPOR loads the operand bank from R1 bits 10:11 and EPPR both banks and the location counter from R1 bits 8:11 and
R1+1; the former PSW goes to the registers and the condition code and bits 0:7 stay. The location counter EPPR saves,
that of the next instruction, is a decision of the spec (47_system_control.md rules R314, R315, log 22). -/
def Obligations.BankExchanges : Prop :=
  ∀ (s : State) (r1 r2 : RegNo),
    (Completes (.epor r1 r2) s fun t =>
      t.reg r1 = s.psw.status ∧ t.psw.OB = (s.reg r1).extractLsb' 4 2 ∧ t.psw.IB = s.psw.IB ∧
        t.psw.control = s.psw.control ∧ t.psw.cc = s.psw.cc ∧ t.psw.LOC = s.psw.LOC + 2 ∧ PswFrame [r1] s t) ∧
    (r1.toNat ≤ 14 → Completes (.eppr r1 r2) s fun t =>
      t.reg r1 = s.psw.status ∧ t.reg (r1 + 1) = s.psw.LOC + 2 ∧ t.psw.IB = (s.reg r1).extractLsb' 6 2 ∧
        t.psw.OB = (s.reg r1).extractLsb' 4 2 ∧ t.psw.LOC = s.reg (r1 + 1) ∧ t.psw.control = s.psw.control ∧
        t.psw.cc = s.psw.cc ∧ PswFrame [r1, r1 + 1] s t)

/-- In Supervisor Mode SESB sets the PSW bits 0:7 that the I2 field names and RESB resets them; no other bit of the
PSW changes but the location counter. In Protect Mode both take the violation. That a nonzero R1 or X2 field stops is
the model's form of an unspecified case (log 11), to which it holds RESB as well as SESB (log 42)
(49_list_trig_augment.md rules R381, R382). All memory fitted, no other agent writing (20_memory.md rules R62, R76).
-/
def Obligations.StatusBits : Prop :=
  ∀ (s : State) (r1 x2 : RegNo) (i2 : Half),
    (s.psw.control.PM = false →
      (Completes (.sesb 0 0 i2) s fun t =>
        t.psw.control.bits = s.psw.control.bits ||| i2.extractLsb' 8 8 ∧ t.psw.IB = s.psw.IB ∧ t.psw.OB = s.psw.OB ∧
          t.psw.cc = s.psw.cc ∧ t.psw.LOC = s.psw.LOC + 4 ∧ PswFrame [] s t) ∧
      (Completes (.resb 0 0 i2) s fun t =>
        t.psw.control.bits = s.psw.control.bits &&& ~~~(i2.extractLsb' 8 8) ∧ t.psw.IB = s.psw.IB ∧
          t.psw.OB = s.psw.OB ∧ t.psw.cc = s.psw.cc ∧ t.psw.LOC = s.psw.LOC + 4 ∧ PswFrame [] s t) ∧
      (r1 ≠ 0 → ∀ i ∈ [Instr.sesb r1 x2 i2, .resb r1 x2 i2], exec i s = .refused (.mustBeZero .R1)) ∧
      (x2 ≠ 0 → ∀ i ∈ [Instr.sesb 0 x2 i2, .resb 0 x2 i2], exec i s = .refused (.mustBeZero .X2))) ∧
    (Undisturbed s → s.psw.control.PM = true → ∀ i ∈ [Instr.sesb r1 x2 i2, .resb r1 x2 i2],
      Completes i s fun t => Exchanges s t 0x0030 0x0034 s.psw.LOC)

/-- In Protect Mode each of the 24 privileged instructions, whatever its fields, stores the Old PSW with its own address
at X'0030', loads the New PSW from X'0034' and does nothing else: no register, no other byte, no device call
(60_exceptions.md rules R407, R426). All memory fitted, no other agent writing (20_memory.md rules R62, R76). -/
def Obligations.PrivilegedInstructionsTrap : Prop :=
  ∀ (s : State) (r1 r2 : RegNo) (w : Half), Undisturbed s → s.psw.control.PM = true →
    (privilegedSet r1 r2 w).length = 24 ∧
    ∀ i ∈ privilegedSet r1 r2 w, Completes i s fun t => Exchanges s t 0x0030 0x0034 s.psw.LOC

/-- SSR and SS deliver the status byte of a device that answers and set the condition code to its low four bits; a
time-out sets V. The oracle is the spec's decision and its queues are the model's form of it, with X'01', device
unavailable, where the queue of statuses is empty, and a time-out where that of selections is (48_input_output.md
rules R330, R336, R337, logs 18 and 31). For a memory operand: all memory fitted, no other agent writing (20_memory.md
rules R62, R76). -/
def Obligations.SenseStatus : Prop :=
  ∀ (s : State) (r1 r2 x2 : RegNo) (a2 : Half) (d : Byte), s.psw.control.PM = false → s.reg r1 = d.setWidth 16 →
    let a := s.ea x2 a2
    let e := s.env.selected d
    let e' := { e with statuses := e.statuses.tail, calls := .status d :: e.calls }
    let st := s.env.statuses.headD 0x01
    (s.env.selects.headD false = true →
      DeviceCompletes (.ssr r1 r2) s [r2] s.psw.OB 0 0 2 e' (fun t =>
        t.reg r2 = st.setWidth 16 ∧ t.psw.cc.bits = st.extractLsb' 0 4) ∧
      (Undisturbed s → DeviceCompletes (.ss r1 x2 a2) s [] s.psw.OB a 1 4 e' (fun t =>
        t.byteAt s.psw.OB a = st ∧ t.psw.cc.bits = st.extractLsb' 0 4))) ∧
    (s.env.selects.headD false = false →
      TimesOut (.ssr r1 r2) s [r2] s.psw.OB 0 0 2 d ∧ (Undisturbed s → TimesOut (.ss r1 x2 a2) s [] s.psw.OB a 1 4 d))

/-- OCR, OC, WDR, WD, WHR and WH deliver a command byte, a data byte or a halfword to a device that answers and change
no register and no memory; V says that the device timed out or, for a command, can not complete it. Rests on the
oracle, whose queues are the model's form of it; an empty queue of command answers says that the device can not
complete it (48_input_output.md rules R338, R339, R342, R343, R346, R347, logs 18 and 31). For a memory operand: all
memory fitted, no other agent writing (20_memory.md rules R62, R76). -/
def Obligations.DeviceOutputs : Prop :=
  ∀ (s : State) (r1 r2 x2 : RegNo) (a2 : Half) (d : Byte), s.psw.control.PM = false → s.reg r1 = d.setWidth 16 →
    let a := s.ea x2 a2
    let e := s.env.selected d
    let low : Byte := (s.reg r2).setWidth 8
    let sent := fun (c : DevCall) => { e with calls := c :: e.calls }
    let v := s.env.commands.headD true
    let more := s.env.commands.tail
    (s.env.selects.headD false = true →
      DeviceCompletes (.ocr r1 r2) s [] 0 0 0 2 { sent (.command d low) with commands := more }
        (fun t => t.psw.cc.V = v) ∧
      (Undisturbed s → DeviceCompletes (.oc r1 x2 a2) s [] 0 0 0 4
        { sent (.command d (s.byteAt s.psw.OB a)) with commands := more } (fun t => t.psw.cc.V = v)) ∧
      DeviceCompletes (.wdr r1 r2) s [] 0 0 0 2 (sent (.write d low)) (fun t => t.psw.cc.V = false) ∧
      DeviceCompletes (.whr r1 r2) s [] 0 0 0 2 (sent (.writeHalf d (s.reg r2))) (fun t => t.psw.cc.V = false) ∧
      (Undisturbed s →
        DeviceCompletes (.wd r1 x2 a2) s [] 0 0 0 4 (sent (.write d (s.byteAt s.psw.OB a)))
          (fun t => t.psw.cc.V = false) ∧
        (EvenAddress a → DeviceCompletes (.wh r1 x2 a2) s [] 0 0 0 4 (sent (.writeHalf d (s.halfAt s.psw.OB a)))
          (fun t => t.psw.cc.V = false)))) ∧
    (s.env.selects.headD false = false →
      (∀ i ∈ [Instr.ocr r1 r2, .wdr r1 r2, .whr r1 r2], TimesOut i s [] 0 0 0 2 d) ∧
      (Undisturbed s →
        (∀ i ∈ [Instr.oc r1 x2 a2, .wd r1 x2 a2], TimesOut i s [] 0 0 0 4 d) ∧
        (EvenAddress a → TimesOut (.wh r1 x2 a2) s [] 0 0 0 4 d)))

/-- RDR, RD, RHR and RH put what a device that answers delivers into R2 or memory and reset V; a time-out sets V.
Rests on the oracle, whose queues are the model's form of it; where a queue is empty what is delivered is open, and
the instruction completes all the same; that RDR clears the high byte of R2 is a decision of the spec
(48_input_output.md rules R340, R341, R344, R345, logs 18 and 31). For a memory operand: all memory fitted, no other
agent writing (20_memory.md rules R62, R76). -/
def Obligations.DeviceInputs : Prop :=
  ∀ (s : State) (r1 r2 x2 : RegNo) (a2 : Half) (d : Byte), s.psw.control.PM = false → s.reg r1 = d.setWidth 16 →
    let a := s.ea x2 a2
    let e := s.env.selected d
    (s.env.selects.headD false = true →
      (s.env.reads = [] →
        let e' := { e with calls := .read d :: e.calls }
        DeviceCompletes (.rdr r1 r2) s [r2] 0 0 0 2 e' (fun t => t.reg r2 &&& 0xff00 = 0 ∧ t.psw.cc.V = false) ∧
        (Undisturbed s → DeviceCompletes (.rd r1 x2 a2) s [] s.psw.OB a 1 4 e' (fun t => t.psw.cc.V = false))) ∧
      (s.env.readHalves = [] →
        let e' := { e with calls := .readHalf d :: e.calls }
        DeviceCompletes (.rhr r1 r2) s [r2] 0 0 0 2 e' (fun t => t.psw.cc.V = false) ∧
        (Undisturbed s → EvenAddress a →
          DeviceCompletes (.rh r1 x2 a2) s [] s.psw.OB a 2 4 e' (fun t => t.psw.cc.V = false))) ∧
      (∀ b more, s.env.reads = b :: more →
        let e' := { e with reads := more, calls := .read d :: e.calls }
        DeviceCompletes (.rdr r1 r2) s [r2] 0 0 0 2 e' (fun t => t.reg r2 = b.setWidth 16 ∧ t.psw.cc.V = false) ∧
        (Undisturbed s → DeviceCompletes (.rd r1 x2 a2) s [] s.psw.OB a 1 4 e'
          (fun t => t.byteAt s.psw.OB a = b ∧ t.psw.cc.V = false))) ∧
      (∀ h more, s.env.readHalves = h :: more →
        let e' := { e with readHalves := more, calls := .readHalf d :: e.calls }
        DeviceCompletes (.rhr r1 r2) s [r2] 0 0 0 2 e' (fun t => t.reg r2 = h ∧ t.psw.cc.V = false) ∧
        (Undisturbed s → EvenAddress a → DeviceCompletes (.rh r1 x2 a2) s [] s.psw.OB a 2 4 e'
          (fun t => t.halfAt s.psw.OB a = h ∧ t.psw.cc.V = false)))) ∧
    (s.env.selects.headD false = false →
      TimesOut (.rdr r1 r2) s [r2] 0 0 0 2 d ∧ TimesOut (.rhr r1 r2) s [r2] 0 0 0 2 d ∧
      (Undisturbed s → TimesOut (.rd r1 x2 a2) s [] s.psw.OB a 1 4 d ∧
        (EvenAddress a → TimesOut (.rh r1 x2 a2) s [] s.psw.OB a 2 4 d)))

/-- AIR and AI put the number and the status byte of the device that answers the acknowledge into R1 and into R2 or
memory, R2 last, and set the condition code to the low four bits of the status; with no answer, now or for good, V is
set. Rests on the oracle, its answers taken off a queue (48_input_output.md rules R332, R334, R335, logs 18 and 31).
For a memory operand: all memory fitted, no other agent writing (20_memory.md rules R62, R76). -/
def Obligations.Acknowledges : Prop :=
  ∀ (s : State) (r1 r2 x2 : RegNo) (a2 : Half), s.psw.control.PM = false →
    let a := s.ea x2 a2
    let e := s.env.acknowledged
    (∀ d st more, s.env.acks = some (d, st) :: more →
      DeviceCompletes (.air r1 r2) s [r1, r2] 0 0 0 2 e (fun t =>
        t.reg r2 = st.setWidth 16 ∧ (r1 ≠ r2 → t.reg r1 = d.setWidth 16) ∧ t.psw.cc.bits = st.extractLsb' 0 4) ∧
      (Undisturbed s → DeviceCompletes (.ai r1 x2 a2) s [r1] s.psw.OB a 1 4 e (fun t =>
        t.reg r1 = d.setWidth 16 ∧ t.byteAt s.psw.OB a = st ∧ t.psw.cc.bits = st.extractLsb' 0 4))) ∧
    (s.env.acks.headD none = none →
      DeviceCompletes (.air r1 r2) s [r1, r2] 0 0 0 2 e (fun t => t.psw.cc.V = true) ∧
      (Undisturbed s → DeviceCompletes (.ai r1 x2 a2) s [r1] s.psw.OB a 1 4 e (fun t => t.psw.cc.V = true)))

/-- RBR and RB move the bytes between their limits, limits included, from a device that answers into memory, and stop
at the first status whose low four bits are not zero; limits in the wrong order move nothing and give condition code
zero; a time-out sets V. The device is selected, then asked for its status and its byte in turn. That each byte's
status is examined first is a decision of the spec (log 31); the queues of answers, the default status X'01' and the
time-out of an empty select queue are the model's form of the oracle (log 18) (48_input_output.md rules R348 to R350).
All memory fitted, no other agent writing (20_memory.md rules R62, R76). -/
def Obligations.BlockReads : Prop :=
  ∀ (s : State) (r1 r2 x2 : RegNo) (a2 : Half) (d : Byte), Undisturbed s →
    s.psw.control.PM = false → s.reg r1 = d.setWidth 16 →
    let claim := fun (i : Instr) (start last len : Half) =>
      (last.toNat < start.toNat →
        DeviceCompletes i s [] 0 0 0 len s.env (fun t => t.psw.cc.bits = 0)) ∧
      (start.toNat ≤ last.toNat → s.env.selects.headD false = false → TimesOut i s [] 0 0 0 len d) ∧
      (start.toNat ≤ last.toNat → s.env.selects.headD false = true → ∃ k, k ≤ last.toNat + 1 - start.toNat ∧
        Completes i s fun t =>
          BlockEnds s t (last.toNat + 1 - start.toNat) k ∧
          (∀ j (h : j < s.env.reads.length), j < k →
            t.byteAt s.psw.OB (start + BitVec.ofNat 16 j) = s.env.reads[j]) ∧
          t.env.calls = (if k < last.toNat + 1 - start.toNat then [.status d] else []) ++
            readBlockCalls d k ++ .select d :: s.env.calls ∧
          t.psw.LOC = s.psw.LOC + len ∧ DeviceFrame [] s.psw.OB start k s t)
    (r2.toNat ≤ 14 → claim (.rbr r1 r2) (s.reg r2) (s.reg (r2 + 1)) 2) ∧
    (EvenAddress (s.ea x2 a2) →
      claim (.rb r1 x2 a2) (s.halfAt s.psw.OB (s.ea x2 a2)) (s.halfAt s.psw.OB (s.ea x2 a2 + 2)) 4)

/-- WBR and WB send the bytes between their limits to the device, each after its status, and leave memory as it was;
they end as the block reads do. That each byte's status is examined first is a decision of the spec (log 31); the
queues of answers, the default status X'01' and the time-out of an empty select queue are the model's form of the
oracle (log 18) (48_input_output.md rules R348, R351, R352). All memory fitted, no other agent writing (20_memory.md
rules R62, R76). -/
def Obligations.BlockWrites : Prop :=
  ∀ (s : State) (r1 r2 x2 : RegNo) (a2 : Half) (d : Byte), Undisturbed s →
    s.psw.control.PM = false → s.reg r1 = d.setWidth 16 →
    let claim := fun (i : Instr) (start last len : Half) =>
      (last.toNat < start.toNat →
        DeviceCompletes i s [] 0 0 0 len s.env (fun t => t.psw.cc.bits = 0)) ∧
      (start.toNat ≤ last.toNat → s.env.selects.headD false = false → TimesOut i s [] 0 0 0 len d) ∧
      (start.toNat ≤ last.toNat → s.env.selects.headD false = true → ∃ k, k ≤ last.toNat + 1 - start.toNat ∧
        Completes i s fun t =>
          BlockEnds s t (last.toNat + 1 - start.toNat) k ∧
          t.env.calls = (if k < last.toNat + 1 - start.toNat then [.status d] else []) ++
            writeBlockCalls s d start k ++ .select d :: s.env.calls ∧
          t.psw.LOC = s.psw.LOC + len ∧ DeviceFrame [] 0 0 0 s t)
    (r2.toNat ≤ 14 → claim (.wbr r1 r2) (s.reg r2) (s.reg (r2 + 1)) 2) ∧
    (EvenAddress (s.ea x2 a2) →
      claim (.wb r1 x2 a2) (s.halfAt s.psw.OB (s.ea x2 a2)) (s.halfAt s.psw.OB (s.ea x2 a2 + 2)) 4)

/-- AL addresses the device whose number stands at X'0078' and sends it the command byte at X'0079' before it
transfers; it completes on every answer of the device, writing nothing of memory but the bytes from X'80' to the end
address; where the device delivers zero bytes and then, beginning with one that is not zero, as many bytes as the area
holds, all with status nibbles of zero, the area holds those bytes and the condition code is zero. The domain and the
examination of the status are decisions of the spec (logs 31 and 32); the queues of answers, the default status X'01'
and the time-out of an empty select queue are the model's form of the oracle (log 18) (48_input_output.md rule R353).
All memory fitted, no other agent writing (20_memory.md rules R62, R76). -/
def Obligations.Autoload : Prop :=
  ∀ (s : State) (x2 : RegNo) (a2 : Half), Undisturbed s → s.psw.control.PM = false → s.psw.OB = 0 →
    0x80 ≤ (s.ea x2 a2).toNat →
    let n := (s.ea x2 a2).toNat + 1 - 0x80
    let d := s.byteAt 0 0x0078
    let before := DevCall.command d (s.byteAt 0 0x0079) :: .select d :: s.env.calls
    (s.env.selects.headD false = false → TimesOut (.al 0 x2 a2) s [] 0 0 0 4 d) ∧
    (s.env.selects.headD false = true →
      (Completes (.al 0 x2 a2) s fun t => t.psw.LOC = s.psw.LOC + 4 ∧ DeviceFrame [] 0 0x0080 n s t ∧
        ∃ l : List DevCall, t.env.calls = l ++ before ∧ ∀ c ∈ l, c = .status d ∨ c = .read d) ∧
      ∀ (lead : Nat) (b : Byte) (data more : List Byte), b ≠ 0 → data.length + 1 = n →
        s.env.reads = List.replicate lead 0 ++ b :: data ++ more → lead + n ≤ s.env.statuses.length →
        (∀ st ∈ s.env.statuses.take (lead + n), st.extractLsb' 0 4 = 0) →
        Completes (.al 0 x2 a2) s fun t => BytesAt t 0 0x0080 (b :: data) ∧ t.psw.cc.bits = 0 ∧
          t.env.calls = readBlockCalls d (lead + n) ++ before)

/-- ATL and ABL on a full list set V alone and store nothing; otherwise they add R1 at the new top or the bottom,
count it and move the pointer with list wrap. RTL and RBL on an empty list set V alone; otherwise they load the
element into R1, count it off and move the pointer, with G saying that the list is not yet empty
(49_list_trig_augment.md rules R361 to R364). All memory fitted, no other agent writing (20_memory.md rules R62, R76).
-/
def Obligations.ListOperations : Prop :=
  ∀ (s : State) (r1 x2 : RegNo) (a2 : Half) (n used top bot : Byte), Undisturbed s →
    ListAt s (s.ea x2 a2) n used top bot →
    let a := s.ea x2 a2
    let ob := s.psw.OB
    let slot := fun (k : Byte) => a + 4 + 2 * k.setWidth 16
    (used = n → ∀ i ∈ [Instr.atl r1 x2 a2, .abl r1 x2 a2], SetsFlags i s 4 fun c => c.bits = 4) ∧
    (used = 0 → ∀ i ∈ [Instr.rtl r1 x2 a2, .rbl r1 x2 a2], SetsFlags i s 4 fun c => c.bits = 4) ∧
    (used ≠ n →
      (Completes (.atl r1 x2 a2) s fun t =>
        Header t ob a n (used + 1) (slotBefore n top) bot ∧ t.halfAt ob (slot (slotBefore n top)) = s.reg r1 ∧
          t.psw.cc.bits = 0 ∧ t.psw.LOC = s.psw.LOC + 4 ∧ SameRegsBut [] s t ∧ SameModes s t ∧ SameUnits s t ∧
          SameMemoryButList ob a (slot (slotBefore n top)) s t) ∧
      (Completes (.abl r1 x2 a2) s fun t =>
        Header t ob a n (used + 1) top (slotAfter n bot) ∧ t.halfAt ob (slot bot) = s.reg r1 ∧
          t.psw.cc.bits = 0 ∧ t.psw.LOC = s.psw.LOC + 4 ∧ SameRegsBut [] s t ∧ SameModes s t ∧ SameUnits s t ∧
          SameMemoryButList ob a (slot bot) s t)) ∧
    (used ≠ 0 →
      (Completes (.rtl r1 x2 a2) s fun t =>
        Header t ob a n (used - 1) (slotAfter n top) bot ∧ t.reg r1 = s.halfAt ob (slot top) ∧
          t.psw.cc.bits = (if used = 1 then 0 else 2) ∧ t.psw.LOC = s.psw.LOC + 4 ∧ SameRegsBut [r1] s t ∧
          SameModes s t ∧ SameUnits s t ∧ SameMemoryOutside ob (a + 1) 3 s t) ∧
      (Completes (.rbl r1 x2 a2) s fun t =>
        Header t ob a n (used - 1) top (slotBefore n bot) ∧ t.reg r1 = s.halfAt ob (slot (slotBefore n bot)) ∧
          t.psw.cc.bits = (if used = 1 then 0 else 2) ∧ t.psw.LOC = s.psw.LOC + 4 ∧ SameRegsBut [r1] s t ∧
          SameModes s t ∧ SameUnits s t ∧ SameMemoryOutside ob (a + 1) 3 s t))

/-- A list is a stack at either end and a queue: an element added at the top and removed from the top, or added at the
bottom and removed from the bottom, is the same element and the header is as it was; one added at the bottom of an
empty list, whose pointers agree, and removed from the top is the same element; one added at the bottom of a list that
holds elements leaves the oldest to be removed from the top (49_list_trig_augment.md rule R365, derived there). All
memory fitted, no other agent writing (20_memory.md rules R62, R76). -/
def Obligations.ListsReturnTheirElements : Prop :=
  ∀ (s t : State) (r1 r2 x2 : RegNo) (a2 : Half) (n used top bot : Byte), Undisturbed s →
    ListAt s (s.ea x2 a2) n used top bot → used ≠ n →
    (exec (.atl r1 x2 a2) s = .next t → Completes (.rtl r2 x2 a2) t fun u =>
      u.reg r2 = s.reg r1 ∧ Header u s.psw.OB (s.ea x2 a2) n used top bot) ∧
    (exec (.abl r1 x2 a2) s = .next t → Completes (.rbl r2 x2 a2) t fun u =>
      u.reg r2 = s.reg r1 ∧ Header u s.psw.OB (s.ea x2 a2) n used top bot) ∧
    (used = 0 → top = bot → exec (.abl r1 x2 a2) s = .next t → Completes (.rtl r2 x2 a2) t fun u =>
      u.reg r2 = s.reg r1 ∧ Header u s.psw.OB (s.ea x2 a2) n 0 (slotAfter n top) (slotAfter n top)) ∧
    (used ≠ 0 → ListAgrees n used top bot → exec (.abl r1 x2 a2) s = .next t → Completes (.rtl r2 x2 a2) t fun u =>
      u.reg r2 = s.halfAt s.psw.OB (s.ea x2 a2 + 4 + 2 * top.setWidth 16) ∧
        Header u s.psw.OB (s.ea x2 a2) n used (slotAfter n top) (slotAfter n bot))

/-- ECPR exchanges the CPR with registers: the new CPR is 16 plus four times R2 bits 12:13, R1 receives the old one and
the condition code stays, R2 being read before R1 is written (49_list_trig_augment.md rule R372). -/
def Obligations.PrecisionExchange : Prop :=
  ∀ (s : State) (r1 r2 : RegNo),
    Completes (.ecpr r1 r2) s fun t =>
      BitVec.ofNat 16 t.cpr.toNat = (s.reg r2 &&& 0x000c) ||| 0x0010 ∧ (t.reg r1).toNat = s.cpr.toNat ∧
        t.psw.cc = s.psw.cc ∧ t.psw.LOC = s.psw.LOC + 2 ∧ SameRegsBut [r1] s t ∧ SameMemory s t ∧ SameModes s t ∧
        t.env = s.env ∧ t.power = s.power ∧ t.runMode = s.runMode ∧ t.install = s.install

/-- COSR and COS leave a cosine and a sine from -1.0 to +1.0 within the bound of Table VI-3 of the integer series for
the angle. ATNR and ATN leave zeros for x = y = 0; set V and no register where the root of the sum of the squares is
above X'7FFFFFFF' by more than the bound; where it is below by more than the bound they leave a root and an angle within
theirs; in between they do one or the other. The angle is that of arctan(y/x), half a turn from it for a negative x
where the parameter ATN_QUADRANT says "quadrant", and for x = 0 it is 90 degrees with the sign of y (log 50). The
results themselves are free, and the integer series stand for the exact values (49_list_trig_augment.md rules R371,
R373, R374, R377, R378, log 17). For a memory operand: all memory fitted, no other agent writing (20_memory.md rules
R62, R76). -/
def Obligations.TrigonometricResults : Prop :=
  ∀ (s : State) (r1 r2 x2 : RegNo) (a2 : Half), QuadReg r1 →
    let cosines := fun (i : Instr) (angle : Full) (len : Half) =>
      Completes i s fun t =>
        (FixedWithin (t.pair r1) (fixedCosine angle.toNat) (cosineError s.cpr) ∧ InUnitRange (t.pair r1)) ∧
          (FixedWithin (t.pair (r1 + 2)) (fixedSine angle.toNat) (cosineError s.cpr) ∧
            InUnitRange (t.pair (r1 + 2))) ∧
          t.psw.cc = s.psw.cc ∧ t.psw.LOC = s.psw.LOC + len ∧ RegisterFrame [r1, r1 + 1, r1 + 2, r1 + 3] s t
    let tangents := fun (i : Instr) (x y : Full) (len : Half) =>
      let limit : Int := 0x7fffffff
      let error : Int := cosineError s.cpr
      let squares := x.toInt ^ 2 + y.toInt ^ 2
      let y' := if x.toInt < 0 then -y.toInt else y.toInt
      let x' : Int := x.toInt.natAbs
      let overflows := fun (t : State) =>
        t.psw.cc.V = true ∧ t.psw.LOC = s.psw.LOC + len ∧ RegisterFrame [] s t
      let delivers := fun (t : State) =>
        (x = 0 → (t.pair r1 - (if y.toInt < 0 then 0xc0000000 else 0x40000000)).toInt.natAbs ≤ arcTangentError s.cpr) ∧
          (x ≠ 0 → AngleWithin (t.pair r1) (if s.install.quadrant = .resolved ∧ x.toInt < 0 then 2 ^ 31 else 0)
            (tangentAtMost y' x') (tangentAtLeast y' x') (arcTangentError s.cpr)) ∧
          RootWithin (t.pair (r1 + 2)) (sumOfSquares x y) (cosineError s.cpr) ∧ t.psw.cc.V = false ∧
          t.psw.LOC = s.psw.LOC + len ∧ RegisterFrame [r1, r1 + 1, r1 + 2, r1 + 3] s t
      (x = 0 → y = 0 → Completes i s fun t =>
        t.pair r1 = 0 ∧ t.pair (r1 + 2) = 0 ∧ t.psw.cc.V = false ∧ t.psw.LOC = s.psw.LOC + len ∧
          RegisterFrame [r1, r1 + 1, r1 + 2, r1 + 3] s t) ∧
      (¬(x = 0 ∧ y = 0) → squares < (limit - error) ^ 2 → Completes i s delivers) ∧
      ((limit + error) ^ 2 < squares → Completes i s overflows) ∧
      ((limit - error) ^ 2 ≤ squares → squares ≤ (limit + error) ^ 2 →
        Completes i s fun t => overflows t ∨ delivers t)
    (EvenReg r2 → cosines (.cosr r1 r2) (s.pair r2) 2) ∧
    (QuadReg r2 → tangents (.atnr r1 r2) (s.pair r2) (s.pair (r2 + 2)) 2) ∧
    (Undisturbed s → EvenAddress (s.ea x2 a2) →
      cosines (.cos r1 x2 a2) (s.fullAt s.psw.OB (s.ea x2 a2)) 4 ∧
      tangents (.atn r1 x2 a2) (s.fullAt s.psw.OB (s.ea x2 a2)) (s.fullAt s.psw.OB (s.ea x2 a2 + 4)) 4)

/-- ASNR and ASN set V and no register where |z| < |y| or both are zero, and otherwise reset V and leave in the pair
R1, R1+1 an angle from -90 to 90 degrees within the bound of Table VI-3 of the arc sine of y/|z|; SQDR and SQD set V
and no register where |x| < |y|, leave an exact zero where x = y, and otherwise a root within its bound. The results
themselves are free, and the integer series stand for the exact values (log 17). The operand places of ASN and SQD and
the result place of SQDR are the model's reading (log 41) (49_list_trig_augment.md rules R371, R375, R376, R379,
R380). For a memory operand: all memory fitted, no other agent writing (20_memory.md rules R62, R76). -/
def Obligations.ArcSinesAndRoots : Prop :=
  ∀ (s : State) (r1 r2 x2 : RegNo) (a2 : Half), EvenReg r1 →
    let sines := fun (i : Instr) (z y : Full) (len : Half) =>
      let z' : Int := z.toInt.natAbs
      (z.toInt.natAbs < y.toInt.natAbs ∨ (z = 0 ∧ y = 0) → SetsFlags i s len fun c => c.V = true) ∧
      (¬(z.toInt.natAbs < y.toInt.natAbs ∨ (z = 0 ∧ y = 0)) → Completes i s fun t =>
        AngleWithin (t.pair r1) 0 (sineAtMost y.toInt z') (sineAtLeast y.toInt z') (arcSineError s.cpr) ∧
          InUnitRange (t.pair r1) ∧ t.psw.cc.V = false ∧ t.psw.LOC = s.psw.LOC + len ∧
          RegisterFrame [r1, r1 + 1] s t)
    let roots := fun (i : Instr) (x y : Full) (len : Half) =>
      (x.toInt.natAbs < y.toInt.natAbs → SetsFlags i s len fun c => c.V = true) ∧
      (y.toInt.natAbs ≤ x.toInt.natAbs → Completes i s fun t =>
        (x = y → t.pair r1 = 0) ∧
        RootWithin (t.pair r1) (x.toInt ^ 2 - y.toInt ^ 2).toNat (differenceError s.cpr) ∧ t.psw.cc.V = false ∧
          t.psw.LOC = s.psw.LOC + len ∧ RegisterFrame [r1, r1 + 1] s t)
    (QuadReg r2 →
      sines (.asnr r1 r2) (s.pair r2) (s.pair (r2 + 2)) 2 ∧ roots (.sqdr r1 r2) (s.pair r2) (s.pair (r2 + 2)) 2) ∧
    (Undisturbed s → EvenAddress (s.ea x2 a2) →
      let first := s.fullAt s.psw.OB (s.ea x2 a2)
      let second := s.fullAt s.psw.OB (s.ea x2 a2 + 4)
      sines (.asn r1 x2 a2) first second 4 ∧ roots (.sqd r1 x2 a2) first second 4)

/-- LCHR and LCH load the two's complement, LCNHR and LCNH the operand changed between two's complement and sign and
magnitude, LAVR and LAV the absolute value; each sets all four flags by its chart (49_list_trig_augment.md rules R383 to
R388). For a memory operand: all memory fitted, no other agent writing (20_memory.md rules R62, R76). -/
def Obligations.AugmentResults : Prop :=
  ∀ (s : State) (r1 r2 x2 : RegNo) (a2 : Half),
    let complement := fun (i : Instr) (v len : Half) =>
      Augments i s r1 (-v) (if v = 0 then 0 else if v = 0x8000 then 13 else if (-v).msb then 9 else 10) len
    let base := fun (i : Instr) (v len : Half) =>
      Augments i s r1 (if v.msb then 0x8000 - v else v)
        (if v = 0 then 0 else if v = 0x8000 then 8 else if v.msb then 1 else 2) len
    let magnitude := fun (i : Instr) (v len : Half) =>
      Augments i s r1 (if v.msb then -v else v)
        (if v = 0 then 0 else if v = 0x8000 then 13 else if v.msb then 10 else 2) len
    complement (.lchr r1 r2) (s.reg r2) 2 ∧ base (.lcnhr r1 r2) (s.reg r2) 2 ∧ magnitude (.lavr r1 r2) (s.reg r2) 2 ∧
    (Undisturbed s → EvenAddress (s.ea x2 a2) →
      let v := s.halfAt s.psw.OB (s.ea x2 a2)
      complement (.lch r1 x2 a2) v 4 ∧ base (.lcnh r1 x2 a2) v 4 ∧ magnitude (.lav r1 x2 a2) v 4)

/-- What the spec leaves UNSPECIFIED in an operand stops the instruction by name, with every R1 that it admits and, for
the privileged ones, in Supervisor Mode: an odd operand address, a device number above 255, a list header with more
slots in use than there are or a pointer at no slot, and the limits of AL. That each stops is the model's form of an
unspecified case (20_memory.md rule R69, 48_input_output.md rules R331, R353, 49_list_trig_augment.md rule R360, logs
8, 31 to 33). For a list header: all memory fitted, no other agent writing (20_memory.md rules R62, R76). -/
def Obligations.UnspecifiedOperandsStop : Prop :=
  ∀ (s : State) (r1 r2 x2 : RegNo) (w : Half),
    let a := s.ea x2 w
    (¬EvenAddress a →
      (∀ i ∈ evenOperandSet r1 x2 w, exec i s = .fault .oddOperandAddress) ∧
      (EvenReg r1 → ∀ i ∈ evenPairSet r1 x2 w, exec i s = .fault .oddOperandAddress) ∧
      (QuadReg r1 → ∀ i ∈ evenQuadSet r1 x2 w, exec i s = .fault .oddOperandAddress) ∧
      (s.psw.control.PM = false → ∀ i ∈ evenPrivilegedSet r1 x2 w, exec i s = .fault .oddOperandAddress)) ∧
    (s.psw.control.PM = false → 256 ≤ (s.reg r1).toNat → r2.toNat ≤ 14 → EvenAddress a →
      ∀ i ∈ addressedSet r1 r2 x2 w, exec i s = .refused .deviceNumberHighByte) ∧
    (s.psw.control.PM = false → s.psw.OB ≠ 0 ∨ a.toNat < 0x80 → exec (.al 0 x2 w) s = .refused .autoloadRange) ∧
    (Undisturbed s → ∀ n used top bot, EvenAddress a → Header s s.psw.OB a n used top bot →
      n.toNat < used.toNat ∨ (n ≠ 0 ∧ (n.toNat ≤ top.toNat ∨ n.toNat ≤ bot.toNat)) →
      ∀ i ∈ [Instr.atl r1 x2 w, .abl r1 x2 w, .rtl r1 x2 w, .rbl r1 x2 w], exec i s = .refused .listHeader)

/-- In Supervisor Mode an instruction is stopped for a register field or a must-be-zero field exactly where it breaks a
restriction (30_encoding.md rules R98, R99, logs 10 and 11). -/
def Obligations.RestrictedFieldsStop : Prop :=
  ∀ (i : Instr) (s : State), s.psw.control.PM = false →
    ((∃ field, exec i s = .refused (.reservedRegister field) ∨ exec i s = .refused (.mustBeZero field)) ↔
      ¬WellFormed i)

/-- Decoding an encoding gives the instruction back, whatever bytes follow, and bytes that decode are the encoding of
what they decode to, with the operation codes of any installation that keeps them distinct: no bit of an encoding is
lost either way. With the codes of the spec's default the decoder and the encoder are those of the opcode map
(30_encoding.md rules R90, R91, R100, R101, R102). That the three disputed codes are parameters is 00_scope.md rule R4;
that an instruction placed in a row of the other length keeps the length of its own format is the model's choice (log
12). -/
def Obligations.EncodingRoundTrip : Prop :=
  ∀ (c : Config.OperationCodes), CodesFit c → ∀ (i : Instr) (bytes rest : List Byte),
    (encodeWith c i = some bytes → decodeWith c (bytes ++ rest) = .ok (i, rest)) ∧
    (decodeWith c bytes = .ok (i, rest) → ∃ e, encodeWith c i = some e ∧ bytes = e ++ rest) ∧
    decodeWith Config.OperationCodes.standard bytes = decode bytes ∧
    encodeWith Config.OperationCodes.standard i = encode i

/-- Every step, whatever it does, keeps memory in its canonical form: addresses rising and inside the 262,144 bytes, no
entry equal to what an unlisted byte reads as (20_memory.md rules R60, R76). -/
def Obligations.StepKeepsMemoryForm : Prop :=
  ∀ (s t : State), Memory.wf s.mem = true → step s = .next t → Memory.wf t.mem = true

/-- The memory of the reset state and of every launch has the canonical form, and a launch takes any image, registers,
PSW, CPR, environment and parameters as given but an odd location counter: every byte of memory is the last one that
the image gives for its address, or else what unlisted memory reads as (20_memory.md rule R60, 70_reset_and_hazards.md
rule R451). What a byte outside the image reads as, that the power mode is operational and that the Run mode is on are
the model's choices (logs 2 and 38). -/
def Obligations.StartsHaveMemoryForm : Prop :=
  Memory.wf State.reset.mem = true ∧
  ∀ install image regs psw cpr env,
    (EvenAddress psw.LOC → ∃ s, launch install image regs psw cpr env = some s ∧ Memory.wf s.mem = true ∧
      (∀ b a, s.byteAt b a = imageByte image (physical b a)) ∧
      s.x = regs ∧ s.psw = psw ∧ s.cpr = cpr ∧ s.env = env ∧ s.install = install ∧ s.power = .operational ∧
      s.runMode = true) ∧
    (¬EvenAddress psw.LOC → launch install image regs psw cpr env = none)

/-- A step runs the decoded instruction. Where nothing outside comes first and the even location counter stands at
bytes that decode to `i`, the step is `exec i` of the state the input has arrived in; in the quiet environment,
operational and not waiting, that is `exec i` of the state itself. Moving past the instruction is part of `exec`. At
an odd location counter the step stops, the model's form of an unspecified fetch (60_exceptions.md rule R403,
30_encoding.md rule R106, 10_state.md rule R31, log 9). For a fetch: all memory fitted, no other agent writing between
transfers (20_memory.md rules R62, R76). -/
def Obligations.StepRunsDecodedInstruction : Prop :=
  ∀ (s : State) (i : Instr) (rest : List Byte),
    (Undisturbed s → EvenAddress s.psw.LOC → s.arrived.outside s.boundary = none →
      decodeWith s.install.codes s.arrived.fetchBytes = .ok (i, rest) → step s = exec i s.arrived) ∧
    (Undisturbed s → EvenAddress s.psw.LOC → Quiet s → decodeWith s.install.codes s.fetchBytes = .ok (i, rest) →
      step s = exec i s) ∧
    (¬EvenAddress s.psw.LOC → Quiet s → step s = .fault .oddLocationCounter)

/-- Words written out from the encodings of the spec decode to their instructions: LIS 5,7; LM 8,X'0100'(3); BTC
2,X'0400'; SVC 3,X'0500'; AER 0,2; SRQL 4,5; RBR 1,2; LCNHR 1,2; the no-op LFR 1,2; and X'E500 0000' and X'0000' to
none (30_encoding.md rules R90 to R103). The codes of AER and SRQL are decisions of the spec (log 12). -/
def Obligations.DecodedWords : Prop :=
  decodeTableWord 16 0x2457 = some (.lis 5 7) ∧ decodeTableWord 32 0xd1830100 = some (.lm 8 3 0x0100) ∧
  decodeTableWord 32 0x42200400 = some (.btc 2 0 0x0400) ∧ decodeTableWord 32 0xe1300500 = some (.svc 3 0 0x0500) ∧
  decodeTableWord 16 0x2a02 = some (.aer 0 2) ∧ decodeTableWord 32 0xe8400005 = some (.srql 4 0 5) ∧
  decodeTableWord 16 0x9712 = some (.rbr 1 2) ∧ decodeTableWord 16 0x1012 = some (.lcnhr 1 2) ∧
  decodeTableWord 16 0x3812 = some (.lfr 1 2) ∧ decodeTableWord 32 0xe5000000 = none ∧
  decodeTableWord 16 0x0000 = none

/-- A step at an operation code that the installation assigns to no instruction takes the Illegal Instruction
interrupt: the Old PSW, with the address of that code, to X'0030', the PSW from X'0034', and nothing else is written.
The list of codes is a decision of the spec (60_exceptions.md rules R404, R406, 30_encoding.md rule R103, log 37), and
which of the disputed codes are assigned a parameter (log 12). All memory fitted, no other agent writing (20_memory.md
rules R62, R76). -/
def Obligations.IllegalInstructions : Prop :=
  ∀ (s : State), Undisturbed s → Quiet s → EvenAddress s.psw.LOC →
    IsUnassigned s.install.codes (s.byteAt s.psw.IB s.psw.LOC) →
    ∃ t, step s = .next t ∧ Exchanges s t 0x0030 0x0034 s.psw.LOC

/-- In Protect Mode no instruction but SVC changes PSW bits 0:7, unless by an interrupt: then the PSW is the New PSW of
the Protect Mode violation, or, where its enable bit is set, of the divide fault or the floating-point fault
(60_exceptions.md rules R427, R428). All memory fitted, no other agent writing (20_memory.md rules R62, R76). -/
def Obligations.ProtectModeKeepsControl : Prop :=
  ∀ (i : Instr) (s t : State), Undisturbed s → s.psw.control.PM = true → (∀ r1 x2 i2, i ≠ .svc r1 x2 i2) →
    exec i s = .next t →
    t.psw.control = s.psw.control ∨
    ∃ k : Interrupt, (k = .protectMode ∨ (k = .divideFault ∧ s.psw.control.DF = true) ∨
      (k = .floatFault ∧ s.psw.control.FP = true)) ∧ t.psw.full = t.fullAt 0 k.newPsw

/-- Between instructions, with the input `b` of the environment and no DMA write in it: Attention with EI set and AS
reset takes the External exchange; with both set, and a device that answers whose Service Pointer is even, the
Immediate Interrupt; a parity error or power-fail signal with MM set takes the Machine Malfunction exchange with its
flag added; each stores the location counter of the instruction not yet executed. The form of the input and the queue
of answers to the acknowledge are the model's (logs 18 to 21), and the block of the Service Pointer stands in bank 0
by a decision of the spec (log 23) (60_exceptions.md rules R403, R410, R413, R414). Channel conditions are apart. All
memory fitted, no other agent writing (20_memory.md rules R62, R76). -/
def Obligations.AsynchronousInterrupts : Prop :=
  ∀ (s : State) (b : Boundary), Undisturbed s → Arrives s b → b.dma = [] → b.termination = false → b.overflow = none →
    s.power = .operational →
    let c := s.psw.control
    let loc := s.psw.LOC
    (b.attention = true → b.parity = .none → b.power = .none → c.EI = true → c.AS = false →
      ∃ t, step s = .next t ∧ Exchanges s.arrived t 0x0040 0x0044 loc) ∧
    (b.attention = true → b.parity = .none → b.power = .none → c.EI = true → c.AS = true →
      ∀ d st more, s.env.acks = some (d, st) :: more →
        let sp := s.halfAt 0 (0x00d0 + 2 * d.setWidth 16)
        EvenAddress sp → ∃ t, step s = .next t ∧ t.fullAt 0 sp = s.psw.status ++ loc ∧
          t.psw.status = s.halfAt 0 (sp + 4) ∧ t.psw.LOC = sp + 6 ∧ t.env = s.arrived.env.acknowledged ∧
          SameRegsBut [] s t ∧ SameMemoryOutside 0 sp 4 s t) ∧
    (b.attention = false → c.MM = true → ∀ flag : Full,
      (b.parity = .instructionRead ∧ b.power = .none ∧ flag = 0x00020000) ∨
        (b.parity = .operandRead ∧ b.power = .none ∧ flag = 0x00040000) ∨
        (b.parity = .none ∧ b.power = .advanceFailure ∧ flag = 0x00010000) →
      ∃ t, step s = .next t ∧ t.fullAt 0 0x0038 = s.psw.status ++ loc ∧
        t.psw.full = s.fullAt 0 0x003c ||| flag ∧ ExchangeFrame 0x0038 4 s.arrived t)

/-- A run that has ended stays ended: with WT set and EI and MM reset, whatever Attention, parity and power-fail
signals the environment gives, a step changes nothing but what arrives, and a quiet environment nothing at all; a run
of any length from there has ended there. The form of the input and of the power mode is the model's (60_exceptions.md
rules R431, R432, 70_reset_and_hazards.md rule R464, logs 19 and 34). -/
def Obligations.EndedRunsStay : Prop :=
  ∀ (s : State), Ended s → s.power = .operational →
    (s.env.inputs = [] → step s = .next s) ∧
    (∀ b, Arrives s b → b.power = .none ∨ b.power = .advanceFailure → b.termination = false → b.overflow = none →
      step s = .next s.arrived ∧ Ended s.arrived) ∧
    ∀ n, run n s = .ended s

/-- Power failure with the memory kept alive is survived: the power-down sequence writes no byte of memory but the save
area and X'24' to X'27', and the restart after it brings back all sixteen registers, wherever the even Register Save
Pointer points to outside X'22' to X'27'. With MM reset and the Run mode on, the whole PSW comes back and the restart
writes no memory; with MM set, in the Run mode or out of it, the restored PSW goes to X'0038', the PSW comes from X'003C'
as the power-down left it, and the restart writes no other byte. The form of the inputs is the model's (log 34). The
shutdown may come beside an asserted and enabled Attention, parity event, termination or overflow: that it then goes first
and the condition is dropped is the model's choice (log 48). The save area stands in bank 0 by a decision of the spec
(log 23) (60_exceptions.md rules R410, R436, R437). All memory fitted, no other agent writing (20_memory.md rules R62,
R76). -/
def Obligations.PowerFailureIsSurvived : Prop :=
  ∀ (s : State) (b b' : Boundary) (rest : List Boundary), Undisturbed s → s.env.inputs = b :: b' :: rest →
    b.power = .shutdown → b'.power = .restored true → b.dma = [] → b'.dma = [] → s.power = .operational →
    s.psw.control.MM = true ∨ s.runMode = true → EvenAddress (s.halfAt 0 0x0022) →
    (∀ k : Half, k.toNat < 32 → ¬ InSpan 0 0x0022 6 0 (s.halfAt 0 0x0022 + k)) →
    ∃ t u, step s = .next t ∧ t.power = .standBy ∧
      (∀ c a, ¬ InSpan 0 (s.halfAt 0 0x0022) 32 c a → ¬ InSpan 0 0x0024 4 c a → t.byteAt c a = s.byteAt c a) ∧
      step t = .next u ∧ u.power = .operational ∧ (∀ r, u.reg r = s.reg r) ∧
      (s.psw.control.MM = false → u.psw = s.psw ∧ SameMemory t u) ∧
      (s.psw.control.MM = true →
        u.fullAt 0 0x0038 = s.psw.full ∧ u.psw.full = t.fullAt 0 0x003c ∧ SameMemoryOutside 0 0x0038 4 t u)
end

