-- ==== Sys2Proof/Laws/Pure.lean ====
section
/-! SUPPORT. What the operations on memory come to where no other agent writes and all of memory is fitted (`Undisturbed`):
updates of the state, and the loops over them. -/

namespace Sys2Proof.Machine

/-- A halfword stored. -/
def State.setHalf (s : State) (b : BankNo) (a : Half) (v : Half) : State :=
  (s.setByte b a (v.extractLsb' 8 8)).setByte b (a + 1) (v.extractLsb' 0 8)

/-- A fullword stored. -/
def State.setFull (s : State) (b : BankNo) (a : Half) (v : Full) : State :=
  (s.setHalf b a (v.extractLsb' 16 16)).setHalf b (a + 2) (v.extractLsb' 0 16)

/-- A floating-point register written. -/
def State.setFloatReg (s : State) (r : RegNo) (v : Full) : State := s.setFull 0 (floatAddress r) v

/-- The PSW loaded from memory. -/
def State.loadedPsw (s : State) (b : BankNo) (a : Half) : State := s.setPsw (Psw.ofFull (s.fullAt b a))

/-- The state after a PSW exchange. -/
def State.exchanged (s : State) (i : Interrupt) (a : Half) : State :=
  (s.setFull 0 i.oldPsw (s.psw.status ++ a)).loadedPsw 0 i.newPsw

/-- The registers after Load Multiple. -/
def State.loadedMultiple (s : State) (b : BankNo) : (n : Nat) → (r : RegNo) → (a : Half) → State
  | 0, _, _ => s
  | n + 1, r, a => (s.setReg r (s.halfAt b a)).loadedMultiple b n (r + 1) (a + 2)

/-- Memory after Store Multiple. -/
def State.storedMultiple (s : State) (b : BankNo) : (n : Nat) → (r : RegNo) → (a : Half) → State
  | 0, _, _ => s
  | n + 1, r, a => (s.setHalf b a (s.reg r)).storedMultiple b n (r + 1) (a + 2)

/-- The result of a floating-point outcome written. -/
def State.setFloatResult (s : State) (r1 : RegNo) (r : FloatResult) : State :=
  match r.register with
  | some v => s.setFloatReg r1 v
  | none => s

/-- The state after the loop of Read Block, before the advance. -/
def State.blockRead (b : BankNo) (d : Byte) : (n : Nat) → (a : Half) → State → State
  | 0, _, s => s.setCC (CC.ofBits 0)
  | n + 1, a, s =>
    let t := s.afterStatus d
    if statusNibble s.statusAnswer ≠ 0 then t.setStatusCC s.statusAnswer
    else State.blockRead b d n (a + 1) ((t.afterRead d).setByte b a t.readAnswer)

/-- The state after the loop of Write Block, before the advance. -/
def State.blockWritten (b : BankNo) (d : Byte) : (n : Nat) → (a : Half) → State → State
  | 0, _, s => s.setCC (CC.ofBits 0)
  | n + 1, a, s =>
    let t := s.afterStatus d
    if statusNibble s.statusAnswer ≠ 0 then t.setStatusCC s.statusAnswer
    else State.blockWritten b d n (a + 1) (t.called (.write d (t.byteAt b a)))

/-- The state after the loop of Autoload, before the advance. -/
def State.autoloaded (d : Byte) (last : Half) : (n : Nat) → (leader : Bool) → (a : Half) → State → State
  | 0, _, _, s => (s.afterStatus d).setStatusCC s.statusAnswer
  | n + 1, leader, a, s =>
    let t := s.afterStatus d
    let b := t.readAnswer
    let u := t.afterRead d
    if statusNibble s.statusAnswer ≠ 0 then t.setStatusCC s.statusAnswer
    else if leader && decide (b = 0) then State.autoloaded d last n true a u
    else if a = last then (u.setByte 0 a b).setCC (CC.ofBits 0)
    else State.autoloaded d last n false (a + 1) (u.setByte 0 a b)

end Sys2Proof.Machine
end

