-- ==== Sys2Proof/Laws/State.lean ====
section
/-! SUPPORT. One lemma per field per update of the state, each true by unfolding, so that no later proof unfolds a record
update. -/

namespace Sys2Proof.Machine

/-! `State.setReg` -/

@[simp] theorem State.setReg_psw (s : State) (r : RegNo) (v : Half) : (s.setReg r v).psw = s.psw := rfl
@[simp] theorem State.setReg_mem (s : State) (r : RegNo) (v : Half) : (s.setReg r v).mem = s.mem := rfl
@[simp] theorem State.setReg_byteAt (s : State) (r : RegNo) (v : Half) (bk : BankNo) (ad : Half) :
    (s.setReg r v).byteAt bk ad = s.byteAt bk ad := rfl
@[simp] theorem State.setReg_halfAt (s : State) (r : RegNo) (v : Half) (bk : BankNo) (ad : Half) :
    (s.setReg r v).halfAt bk ad = s.halfAt bk ad := rfl
@[simp] theorem State.setReg_fullAt (s : State) (r : RegNo) (v : Half) (bk : BankNo) (ad : Half) :
    (s.setReg r v).fullAt bk ad = s.fullAt bk ad := rfl
@[simp] theorem State.setReg_cpr (s : State) (r : RegNo) (v : Half) : (s.setReg r v).cpr = s.cpr := rfl
@[simp] theorem State.setReg_env (s : State) (r : RegNo) (v : Half) : (s.setReg r v).env = s.env := rfl
@[simp] theorem State.setReg_install (s : State) (r : RegNo) (v : Half) : (s.setReg r v).install = s.install := rfl
@[simp] theorem State.setReg_power (s : State) (r : RegNo) (v : Half) : (s.setReg r v).power = s.power := rfl
@[simp] theorem State.setReg_runMode (s : State) (r : RegNo) (v : Half) : (s.setReg r v).runMode = s.runMode := rfl
@[simp] theorem State.setReg_draws (s : State) (r : RegNo) (v : Half) : (s.setReg r v).draws = s.draws := rfl
@[simp] theorem State.setReg_undisturbed (s : State) (r : RegNo) (v : Half) :
    Undisturbed (s.setReg r v) ↔ Undisturbed s := ⟨fun h => ⟨h.1, h.2⟩, fun h => ⟨h.1, h.2⟩⟩

/-! `State.setPair` -/

@[simp] theorem State.setPair_psw (s : State) (r : RegNo) (v : Full) : (s.setPair r v).psw = s.psw := rfl
@[simp] theorem State.setPair_mem (s : State) (r : RegNo) (v : Full) : (s.setPair r v).mem = s.mem := rfl
@[simp] theorem State.setPair_byteAt (s : State) (r : RegNo) (v : Full) (bk : BankNo) (ad : Half) :
    (s.setPair r v).byteAt bk ad = s.byteAt bk ad := rfl
@[simp] theorem State.setPair_halfAt (s : State) (r : RegNo) (v : Full) (bk : BankNo) (ad : Half) :
    (s.setPair r v).halfAt bk ad = s.halfAt bk ad := rfl
@[simp] theorem State.setPair_fullAt (s : State) (r : RegNo) (v : Full) (bk : BankNo) (ad : Half) :
    (s.setPair r v).fullAt bk ad = s.fullAt bk ad := rfl
@[simp] theorem State.setPair_cpr (s : State) (r : RegNo) (v : Full) : (s.setPair r v).cpr = s.cpr := rfl
@[simp] theorem State.setPair_env (s : State) (r : RegNo) (v : Full) : (s.setPair r v).env = s.env := rfl
@[simp] theorem State.setPair_install (s : State) (r : RegNo) (v : Full) : (s.setPair r v).install = s.install := rfl
@[simp] theorem State.setPair_power (s : State) (r : RegNo) (v : Full) : (s.setPair r v).power = s.power := rfl
@[simp] theorem State.setPair_runMode (s : State) (r : RegNo) (v : Full) : (s.setPair r v).runMode = s.runMode := rfl
@[simp] theorem State.setPair_draws (s : State) (r : RegNo) (v : Full) : (s.setPair r v).draws = s.draws := rfl
@[simp] theorem State.setPair_undisturbed (s : State) (r : RegNo) (v : Full) :
    Undisturbed (s.setPair r v) ↔ Undisturbed s := ⟨fun h => ⟨h.1, h.2⟩, fun h => ⟨h.1, h.2⟩⟩

/-! `State.setQuad` -/

@[simp] theorem State.setQuad_psw (s : State) (r : RegNo) (v : Dbl) : (s.setQuad r v).psw = s.psw := rfl
@[simp] theorem State.setQuad_mem (s : State) (r : RegNo) (v : Dbl) : (s.setQuad r v).mem = s.mem := rfl
@[simp] theorem State.setQuad_byteAt (s : State) (r : RegNo) (v : Dbl) (bk : BankNo) (ad : Half) :
    (s.setQuad r v).byteAt bk ad = s.byteAt bk ad := rfl
@[simp] theorem State.setQuad_halfAt (s : State) (r : RegNo) (v : Dbl) (bk : BankNo) (ad : Half) :
    (s.setQuad r v).halfAt bk ad = s.halfAt bk ad := rfl
@[simp] theorem State.setQuad_fullAt (s : State) (r : RegNo) (v : Dbl) (bk : BankNo) (ad : Half) :
    (s.setQuad r v).fullAt bk ad = s.fullAt bk ad := rfl
@[simp] theorem State.setQuad_cpr (s : State) (r : RegNo) (v : Dbl) : (s.setQuad r v).cpr = s.cpr := rfl
@[simp] theorem State.setQuad_env (s : State) (r : RegNo) (v : Dbl) : (s.setQuad r v).env = s.env := rfl
@[simp] theorem State.setQuad_install (s : State) (r : RegNo) (v : Dbl) : (s.setQuad r v).install = s.install := rfl
@[simp] theorem State.setQuad_power (s : State) (r : RegNo) (v : Dbl) : (s.setQuad r v).power = s.power := rfl
@[simp] theorem State.setQuad_runMode (s : State) (r : RegNo) (v : Dbl) : (s.setQuad r v).runMode = s.runMode := rfl
@[simp] theorem State.setQuad_draws (s : State) (r : RegNo) (v : Dbl) : (s.setQuad r v).draws = s.draws := rfl
@[simp] theorem State.setQuad_undisturbed (s : State) (r : RegNo) (v : Dbl) :
    Undisturbed (s.setQuad r v) ↔ Undisturbed s := ⟨fun h => ⟨h.1, h.2⟩, fun h => ⟨h.1, h.2⟩⟩

/-! `State.setPsw` -/

@[simp] theorem State.setPsw_x (s : State) (p : Psw) : (s.setPsw p).x = s.x := rfl
@[simp] theorem State.setPsw_reg (s : State) (p : Psw) (q : RegNo) : (s.setPsw p).reg q = s.reg q := rfl
@[simp] theorem State.setPsw_pair (s : State) (p : Psw) (q : RegNo) : (s.setPsw p).pair q = s.pair q := rfl
@[simp] theorem State.setPsw_quad (s : State) (p : Psw) (q : RegNo) : (s.setPsw p).quad q = s.quad q := rfl
@[simp] theorem State.setPsw_mem (s : State) (p : Psw) : (s.setPsw p).mem = s.mem := rfl
@[simp] theorem State.setPsw_byteAt (s : State) (p : Psw) (bk : BankNo) (ad : Half) :
    (s.setPsw p).byteAt bk ad = s.byteAt bk ad := rfl
@[simp] theorem State.setPsw_halfAt (s : State) (p : Psw) (bk : BankNo) (ad : Half) :
    (s.setPsw p).halfAt bk ad = s.halfAt bk ad := rfl
@[simp] theorem State.setPsw_fullAt (s : State) (p : Psw) (bk : BankNo) (ad : Half) :
    (s.setPsw p).fullAt bk ad = s.fullAt bk ad := rfl
@[simp] theorem State.setPsw_cpr (s : State) (p : Psw) : (s.setPsw p).cpr = s.cpr := rfl
@[simp] theorem State.setPsw_env (s : State) (p : Psw) : (s.setPsw p).env = s.env := rfl
@[simp] theorem State.setPsw_install (s : State) (p : Psw) : (s.setPsw p).install = s.install := rfl
@[simp] theorem State.setPsw_power (s : State) (p : Psw) : (s.setPsw p).power = s.power := rfl
@[simp] theorem State.setPsw_runMode (s : State) (p : Psw) : (s.setPsw p).runMode = s.runMode := rfl
@[simp] theorem State.setPsw_draws (s : State) (p : Psw) : (s.setPsw p).draws = s.draws := rfl
@[simp] theorem State.setPsw_undisturbed (s : State) (p : Psw) :
    Undisturbed (s.setPsw p) ↔ Undisturbed s := ⟨fun h => ⟨h.1, h.2⟩, fun h => ⟨h.1, h.2⟩⟩
@[simp] theorem State.setPsw_psw (s : State) (p : Psw) : (s.setPsw p).psw = p := rfl

/-! `State.setCC` -/

@[simp] theorem State.setCC_x (s : State) (c : CC) : (s.setCC c).x = s.x := rfl
@[simp] theorem State.setCC_reg (s : State) (c : CC) (q : RegNo) : (s.setCC c).reg q = s.reg q := rfl
@[simp] theorem State.setCC_pair (s : State) (c : CC) (q : RegNo) : (s.setCC c).pair q = s.pair q := rfl
@[simp] theorem State.setCC_quad (s : State) (c : CC) (q : RegNo) : (s.setCC c).quad q = s.quad q := rfl
@[simp] theorem State.setCC_control (s : State) (c : CC) : (s.setCC c).psw.control = s.psw.control := rfl
@[simp] theorem State.setCC_IB (s : State) (c : CC) : (s.setCC c).psw.IB = s.psw.IB := rfl
@[simp] theorem State.setCC_OB (s : State) (c : CC) : (s.setCC c).psw.OB = s.psw.OB := rfl
@[simp] theorem State.setCC_LOC (s : State) (c : CC) : (s.setCC c).psw.LOC = s.psw.LOC := rfl
@[simp] theorem State.setCC_mem (s : State) (c : CC) : (s.setCC c).mem = s.mem := rfl
@[simp] theorem State.setCC_byteAt (s : State) (c : CC) (bk : BankNo) (ad : Half) :
    (s.setCC c).byteAt bk ad = s.byteAt bk ad := rfl
@[simp] theorem State.setCC_halfAt (s : State) (c : CC) (bk : BankNo) (ad : Half) :
    (s.setCC c).halfAt bk ad = s.halfAt bk ad := rfl
@[simp] theorem State.setCC_fullAt (s : State) (c : CC) (bk : BankNo) (ad : Half) :
    (s.setCC c).fullAt bk ad = s.fullAt bk ad := rfl
@[simp] theorem State.setCC_cpr (s : State) (c : CC) : (s.setCC c).cpr = s.cpr := rfl
@[simp] theorem State.setCC_env (s : State) (c : CC) : (s.setCC c).env = s.env := rfl
@[simp] theorem State.setCC_install (s : State) (c : CC) : (s.setCC c).install = s.install := rfl
@[simp] theorem State.setCC_power (s : State) (c : CC) : (s.setCC c).power = s.power := rfl
@[simp] theorem State.setCC_runMode (s : State) (c : CC) : (s.setCC c).runMode = s.runMode := rfl
@[simp] theorem State.setCC_draws (s : State) (c : CC) : (s.setCC c).draws = s.draws := rfl
@[simp] theorem State.setCC_undisturbed (s : State) (c : CC) :
    Undisturbed (s.setCC c) ↔ Undisturbed s := ⟨fun h => ⟨h.1, h.2⟩, fun h => ⟨h.1, h.2⟩⟩
@[simp] theorem State.setCC_cc (s : State) (c : CC) : (s.setCC c).psw.cc = c := rfl

/-! `State.jump` -/

@[simp] theorem State.jump_x (s : State) (a : Half) : (s.jump a).x = s.x := rfl
@[simp] theorem State.jump_reg (s : State) (a : Half) (q : RegNo) : (s.jump a).reg q = s.reg q := rfl
@[simp] theorem State.jump_pair (s : State) (a : Half) (q : RegNo) : (s.jump a).pair q = s.pair q := rfl
@[simp] theorem State.jump_quad (s : State) (a : Half) (q : RegNo) : (s.jump a).quad q = s.quad q := rfl
@[simp] theorem State.jump_control (s : State) (a : Half) : (s.jump a).psw.control = s.psw.control := rfl
@[simp] theorem State.jump_IB (s : State) (a : Half) : (s.jump a).psw.IB = s.psw.IB := rfl
@[simp] theorem State.jump_OB (s : State) (a : Half) : (s.jump a).psw.OB = s.psw.OB := rfl
@[simp] theorem State.jump_cc (s : State) (a : Half) : (s.jump a).psw.cc = s.psw.cc := rfl
@[simp] theorem State.jump_mem (s : State) (a : Half) : (s.jump a).mem = s.mem := rfl
@[simp] theorem State.jump_byteAt (s : State) (a : Half) (bk : BankNo) (ad : Half) :
    (s.jump a).byteAt bk ad = s.byteAt bk ad := rfl
@[simp] theorem State.jump_halfAt (s : State) (a : Half) (bk : BankNo) (ad : Half) :
    (s.jump a).halfAt bk ad = s.halfAt bk ad := rfl
@[simp] theorem State.jump_fullAt (s : State) (a : Half) (bk : BankNo) (ad : Half) :
    (s.jump a).fullAt bk ad = s.fullAt bk ad := rfl
@[simp] theorem State.jump_cpr (s : State) (a : Half) : (s.jump a).cpr = s.cpr := rfl
@[simp] theorem State.jump_env (s : State) (a : Half) : (s.jump a).env = s.env := rfl
@[simp] theorem State.jump_install (s : State) (a : Half) : (s.jump a).install = s.install := rfl
@[simp] theorem State.jump_power (s : State) (a : Half) : (s.jump a).power = s.power := rfl
@[simp] theorem State.jump_runMode (s : State) (a : Half) : (s.jump a).runMode = s.runMode := rfl
@[simp] theorem State.jump_draws (s : State) (a : Half) : (s.jump a).draws = s.draws := rfl
@[simp] theorem State.jump_undisturbed (s : State) (a : Half) :
    Undisturbed (s.jump a) ↔ Undisturbed s := ⟨fun h => ⟨h.1, h.2⟩, fun h => ⟨h.1, h.2⟩⟩
@[simp] theorem State.jump_LOC (s : State) (a : Half) : (s.jump a).psw.LOC = a := rfl

/-! `State.advance` -/

@[simp] theorem State.advance_x (s : State) (len : Half) : (s.advance len).x = s.x := rfl
@[simp] theorem State.advance_reg (s : State) (len : Half) (q : RegNo) : (s.advance len).reg q = s.reg q := rfl
@[simp] theorem State.advance_pair (s : State) (len : Half) (q : RegNo) : (s.advance len).pair q = s.pair q := rfl
@[simp] theorem State.advance_quad (s : State) (len : Half) (q : RegNo) : (s.advance len).quad q = s.quad q := rfl
@[simp] theorem State.advance_control (s : State) (len : Half) : (s.advance len).psw.control = s.psw.control := rfl
@[simp] theorem State.advance_IB (s : State) (len : Half) : (s.advance len).psw.IB = s.psw.IB := rfl
@[simp] theorem State.advance_OB (s : State) (len : Half) : (s.advance len).psw.OB = s.psw.OB := rfl
@[simp] theorem State.advance_cc (s : State) (len : Half) : (s.advance len).psw.cc = s.psw.cc := rfl
@[simp] theorem State.advance_mem (s : State) (len : Half) : (s.advance len).mem = s.mem := rfl
@[simp] theorem State.advance_byteAt (s : State) (len : Half) (bk : BankNo) (ad : Half) :
    (s.advance len).byteAt bk ad = s.byteAt bk ad := rfl
@[simp] theorem State.advance_halfAt (s : State) (len : Half) (bk : BankNo) (ad : Half) :
    (s.advance len).halfAt bk ad = s.halfAt bk ad := rfl
@[simp] theorem State.advance_fullAt (s : State) (len : Half) (bk : BankNo) (ad : Half) :
    (s.advance len).fullAt bk ad = s.fullAt bk ad := rfl
@[simp] theorem State.advance_cpr (s : State) (len : Half) : (s.advance len).cpr = s.cpr := rfl
@[simp] theorem State.advance_env (s : State) (len : Half) : (s.advance len).env = s.env := rfl
@[simp] theorem State.advance_install (s : State) (len : Half) : (s.advance len).install = s.install := rfl
@[simp] theorem State.advance_power (s : State) (len : Half) : (s.advance len).power = s.power := rfl
@[simp] theorem State.advance_runMode (s : State) (len : Half) : (s.advance len).runMode = s.runMode := rfl
@[simp] theorem State.advance_draws (s : State) (len : Half) : (s.advance len).draws = s.draws := rfl
@[simp] theorem State.advance_undisturbed (s : State) (len : Half) :
    Undisturbed (s.advance len) ↔ Undisturbed s := ⟨fun h => ⟨h.1, h.2⟩, fun h => ⟨h.1, h.2⟩⟩
@[simp] theorem State.advance_LOC (s : State) (len : Half) : (s.advance len).psw.LOC = s.psw.LOC + len := rfl

/-! `State.drew` -/

@[simp] theorem State.drew_x (s : State) (n : Nat) : (s.drew n).x = s.x := rfl
@[simp] theorem State.drew_reg (s : State) (n : Nat) (q : RegNo) : (s.drew n).reg q = s.reg q := rfl
@[simp] theorem State.drew_pair (s : State) (n : Nat) (q : RegNo) : (s.drew n).pair q = s.pair q := rfl
@[simp] theorem State.drew_quad (s : State) (n : Nat) (q : RegNo) : (s.drew n).quad q = s.quad q := rfl
@[simp] theorem State.drew_psw (s : State) (n : Nat) : (s.drew n).psw = s.psw := rfl
@[simp] theorem State.drew_mem (s : State) (n : Nat) : (s.drew n).mem = s.mem := rfl
@[simp] theorem State.drew_byteAt (s : State) (n : Nat) (bk : BankNo) (ad : Half) :
    (s.drew n).byteAt bk ad = s.byteAt bk ad := rfl
@[simp] theorem State.drew_halfAt (s : State) (n : Nat) (bk : BankNo) (ad : Half) :
    (s.drew n).halfAt bk ad = s.halfAt bk ad := rfl
@[simp] theorem State.drew_fullAt (s : State) (n : Nat) (bk : BankNo) (ad : Half) :
    (s.drew n).fullAt bk ad = s.fullAt bk ad := rfl
@[simp] theorem State.drew_cpr (s : State) (n : Nat) : (s.drew n).cpr = s.cpr := rfl
@[simp] theorem State.drew_env (s : State) (n : Nat) : (s.drew n).env = s.env := rfl
@[simp] theorem State.drew_install (s : State) (n : Nat) : (s.drew n).install = s.install := rfl
@[simp] theorem State.drew_power (s : State) (n : Nat) : (s.drew n).power = s.power := rfl
@[simp] theorem State.drew_runMode (s : State) (n : Nat) : (s.drew n).runMode = s.runMode := rfl
@[simp] theorem State.drew_undisturbed (s : State) (n : Nat) :
    Undisturbed (s.drew n) ↔ Undisturbed s := ⟨fun h => ⟨h.1, h.2⟩, fun h => ⟨h.1, h.2⟩⟩
@[simp] theorem State.drew_draws (s : State) (n : Nat) : (s.drew n).draws = s.draws + n := rfl

/-! `State.setByte` -/

@[simp] theorem State.setByte_x (s : State) (b : BankNo) (a : Half) (v : Byte) : (s.setByte b a v).x = s.x := rfl
@[simp] theorem State.setByte_reg (s : State) (b : BankNo) (a : Half) (v : Byte) (q : RegNo) :
    (s.setByte b a v).reg q = s.reg q := rfl
@[simp] theorem State.setByte_pair (s : State) (b : BankNo) (a : Half) (v : Byte) (q : RegNo) :
    (s.setByte b a v).pair q = s.pair q := rfl
@[simp] theorem State.setByte_quad (s : State) (b : BankNo) (a : Half) (v : Byte) (q : RegNo) :
    (s.setByte b a v).quad q = s.quad q := rfl
@[simp] theorem State.setByte_psw (s : State) (b : BankNo) (a : Half) (v : Byte) :
    (s.setByte b a v).psw = s.psw := rfl
@[simp] theorem State.setByte_cpr (s : State) (b : BankNo) (a : Half) (v : Byte) :
    (s.setByte b a v).cpr = s.cpr := rfl
@[simp] theorem State.setByte_env (s : State) (b : BankNo) (a : Half) (v : Byte) :
    (s.setByte b a v).env = s.env := rfl
@[simp] theorem State.setByte_install (s : State) (b : BankNo) (a : Half) (v : Byte) :
    (s.setByte b a v).install = s.install := rfl
@[simp] theorem State.setByte_power (s : State) (b : BankNo) (a : Half) (v : Byte) :
    (s.setByte b a v).power = s.power := rfl
@[simp] theorem State.setByte_runMode (s : State) (b : BankNo) (a : Half) (v : Byte) :
    (s.setByte b a v).runMode = s.runMode := rfl
@[simp] theorem State.setByte_draws (s : State) (b : BankNo) (a : Half) (v : Byte) :
    (s.setByte b a v).draws = s.draws := rfl
@[simp] theorem State.setByte_undisturbed (s : State) (b : BankNo) (a : Half) (v : Byte) :
    Undisturbed (s.setByte b a v) ↔ Undisturbed s := ⟨fun h => ⟨h.1, h.2⟩, fun h => ⟨h.1, h.2⟩⟩

/-! `State.setHalf` -/

@[simp] theorem State.setHalf_x (s : State) (b : BankNo) (a v : Half) : (s.setHalf b a v).x = s.x := rfl
@[simp] theorem State.setHalf_reg (s : State) (b : BankNo) (a v : Half) (q : RegNo) :
    (s.setHalf b a v).reg q = s.reg q := rfl
@[simp] theorem State.setHalf_pair (s : State) (b : BankNo) (a v : Half) (q : RegNo) :
    (s.setHalf b a v).pair q = s.pair q := rfl
@[simp] theorem State.setHalf_quad (s : State) (b : BankNo) (a v : Half) (q : RegNo) :
    (s.setHalf b a v).quad q = s.quad q := rfl
@[simp] theorem State.setHalf_psw (s : State) (b : BankNo) (a v : Half) : (s.setHalf b a v).psw = s.psw := rfl
@[simp] theorem State.setHalf_cpr (s : State) (b : BankNo) (a v : Half) : (s.setHalf b a v).cpr = s.cpr := rfl
@[simp] theorem State.setHalf_env (s : State) (b : BankNo) (a v : Half) : (s.setHalf b a v).env = s.env := rfl
@[simp] theorem State.setHalf_install (s : State) (b : BankNo) (a v : Half) :
    (s.setHalf b a v).install = s.install := rfl
@[simp] theorem State.setHalf_power (s : State) (b : BankNo) (a v : Half) : (s.setHalf b a v).power = s.power := rfl
@[simp] theorem State.setHalf_runMode (s : State) (b : BankNo) (a v : Half) :
    (s.setHalf b a v).runMode = s.runMode := rfl
@[simp] theorem State.setHalf_draws (s : State) (b : BankNo) (a v : Half) : (s.setHalf b a v).draws = s.draws := rfl
@[simp] theorem State.setHalf_undisturbed (s : State) (b : BankNo) (a v : Half) :
    Undisturbed (s.setHalf b a v) ↔ Undisturbed s := ⟨fun h => ⟨h.1, h.2⟩, fun h => ⟨h.1, h.2⟩⟩

/-! `State.setFull` -/

@[simp] theorem State.setFull_x (s : State) (b : BankNo) (a : Half) (v : Full) : (s.setFull b a v).x = s.x := rfl
@[simp] theorem State.setFull_reg (s : State) (b : BankNo) (a : Half) (v : Full) (q : RegNo) :
    (s.setFull b a v).reg q = s.reg q := rfl
@[simp] theorem State.setFull_pair (s : State) (b : BankNo) (a : Half) (v : Full) (q : RegNo) :
    (s.setFull b a v).pair q = s.pair q := rfl
@[simp] theorem State.setFull_quad (s : State) (b : BankNo) (a : Half) (v : Full) (q : RegNo) :
    (s.setFull b a v).quad q = s.quad q := rfl
@[simp] theorem State.setFull_psw (s : State) (b : BankNo) (a : Half) (v : Full) :
    (s.setFull b a v).psw = s.psw := rfl
@[simp] theorem State.setFull_cpr (s : State) (b : BankNo) (a : Half) (v : Full) :
    (s.setFull b a v).cpr = s.cpr := rfl
@[simp] theorem State.setFull_env (s : State) (b : BankNo) (a : Half) (v : Full) :
    (s.setFull b a v).env = s.env := rfl
@[simp] theorem State.setFull_install (s : State) (b : BankNo) (a : Half) (v : Full) :
    (s.setFull b a v).install = s.install := rfl
@[simp] theorem State.setFull_power (s : State) (b : BankNo) (a : Half) (v : Full) :
    (s.setFull b a v).power = s.power := rfl
@[simp] theorem State.setFull_runMode (s : State) (b : BankNo) (a : Half) (v : Full) :
    (s.setFull b a v).runMode = s.runMode := rfl
@[simp] theorem State.setFull_draws (s : State) (b : BankNo) (a : Half) (v : Full) :
    (s.setFull b a v).draws = s.draws := rfl
@[simp] theorem State.setFull_undisturbed (s : State) (b : BankNo) (a : Half) (v : Full) :
    Undisturbed (s.setFull b a v) ↔ Undisturbed s := ⟨fun h => ⟨h.1, h.2⟩, fun h => ⟨h.1, h.2⟩⟩

/-! `State.setFloatReg` -/

@[simp] theorem State.setFloatReg_x (s : State) (r : RegNo) (v : Full) : (s.setFloatReg r v).x = s.x := rfl
@[simp] theorem State.setFloatReg_reg (s : State) (r : RegNo) (v : Full) (q : RegNo) :
    (s.setFloatReg r v).reg q = s.reg q := rfl
@[simp] theorem State.setFloatReg_pair (s : State) (r : RegNo) (v : Full) (q : RegNo) :
    (s.setFloatReg r v).pair q = s.pair q := rfl
@[simp] theorem State.setFloatReg_quad (s : State) (r : RegNo) (v : Full) (q : RegNo) :
    (s.setFloatReg r v).quad q = s.quad q := rfl
@[simp] theorem State.setFloatReg_psw (s : State) (r : RegNo) (v : Full) : (s.setFloatReg r v).psw = s.psw := rfl
@[simp] theorem State.setFloatReg_cpr (s : State) (r : RegNo) (v : Full) : (s.setFloatReg r v).cpr = s.cpr := rfl
@[simp] theorem State.setFloatReg_env (s : State) (r : RegNo) (v : Full) : (s.setFloatReg r v).env = s.env := rfl
@[simp] theorem State.setFloatReg_install (s : State) (r : RegNo) (v : Full) :
    (s.setFloatReg r v).install = s.install := rfl
@[simp] theorem State.setFloatReg_power (s : State) (r : RegNo) (v : Full) :
    (s.setFloatReg r v).power = s.power := rfl
@[simp] theorem State.setFloatReg_runMode (s : State) (r : RegNo) (v : Full) :
    (s.setFloatReg r v).runMode = s.runMode := rfl
@[simp] theorem State.setFloatReg_draws (s : State) (r : RegNo) (v : Full) :
    (s.setFloatReg r v).draws = s.draws := rfl
@[simp] theorem State.setFloatReg_undisturbed (s : State) (r : RegNo) (v : Full) :
    Undisturbed (s.setFloatReg r v) ↔ Undisturbed s := ⟨fun h => ⟨h.1, h.2⟩, fun h => ⟨h.1, h.2⟩⟩

/-! `State.loadedPsw` -/

@[simp] theorem State.loadedPsw_x (s : State) (b : BankNo) (a : Half) : (s.loadedPsw b a).x = s.x := rfl
@[simp] theorem State.loadedPsw_reg (s : State) (b : BankNo) (a : Half) (q : RegNo) :
    (s.loadedPsw b a).reg q = s.reg q := rfl
@[simp] theorem State.loadedPsw_pair (s : State) (b : BankNo) (a : Half) (q : RegNo) :
    (s.loadedPsw b a).pair q = s.pair q := rfl
@[simp] theorem State.loadedPsw_quad (s : State) (b : BankNo) (a : Half) (q : RegNo) :
    (s.loadedPsw b a).quad q = s.quad q := rfl
@[simp] theorem State.loadedPsw_mem (s : State) (b : BankNo) (a : Half) : (s.loadedPsw b a).mem = s.mem := rfl
@[simp] theorem State.loadedPsw_byteAt (s : State) (b : BankNo) (a : Half) (bk : BankNo) (ad : Half) :
    (s.loadedPsw b a).byteAt bk ad = s.byteAt bk ad := rfl
@[simp] theorem State.loadedPsw_halfAt (s : State) (b : BankNo) (a : Half) (bk : BankNo) (ad : Half) :
    (s.loadedPsw b a).halfAt bk ad = s.halfAt bk ad := rfl
@[simp] theorem State.loadedPsw_fullAt (s : State) (b : BankNo) (a : Half) (bk : BankNo) (ad : Half) :
    (s.loadedPsw b a).fullAt bk ad = s.fullAt bk ad := rfl
@[simp] theorem State.loadedPsw_cpr (s : State) (b : BankNo) (a : Half) : (s.loadedPsw b a).cpr = s.cpr := rfl
@[simp] theorem State.loadedPsw_env (s : State) (b : BankNo) (a : Half) : (s.loadedPsw b a).env = s.env := rfl
@[simp] theorem State.loadedPsw_install (s : State) (b : BankNo) (a : Half) :
    (s.loadedPsw b a).install = s.install := rfl
@[simp] theorem State.loadedPsw_power (s : State) (b : BankNo) (a : Half) : (s.loadedPsw b a).power = s.power := rfl
@[simp] theorem State.loadedPsw_runMode (s : State) (b : BankNo) (a : Half) :
    (s.loadedPsw b a).runMode = s.runMode := rfl
@[simp] theorem State.loadedPsw_draws (s : State) (b : BankNo) (a : Half) : (s.loadedPsw b a).draws = s.draws := rfl
@[simp] theorem State.loadedPsw_undisturbed (s : State) (b : BankNo) (a : Half) :
    Undisturbed (s.loadedPsw b a) ↔ Undisturbed s := ⟨fun h => ⟨h.1, h.2⟩, fun h => ⟨h.1, h.2⟩⟩
@[simp] theorem State.loadedPsw_psw (s : State) (b : BankNo) (a : Half) :
    (s.loadedPsw b a).psw = Psw.ofFull (s.fullAt b a) := rfl

/-! `State.exchanged` -/

@[simp] theorem State.exchanged_x (s : State) (i : Interrupt) (a : Half) : (s.exchanged i a).x = s.x := rfl
@[simp] theorem State.exchanged_reg (s : State) (i : Interrupt) (a : Half) (q : RegNo) :
    (s.exchanged i a).reg q = s.reg q := rfl
@[simp] theorem State.exchanged_pair (s : State) (i : Interrupt) (a : Half) (q : RegNo) :
    (s.exchanged i a).pair q = s.pair q := rfl
@[simp] theorem State.exchanged_quad (s : State) (i : Interrupt) (a : Half) (q : RegNo) :
    (s.exchanged i a).quad q = s.quad q := rfl
@[simp] theorem State.exchanged_cpr (s : State) (i : Interrupt) (a : Half) : (s.exchanged i a).cpr = s.cpr := rfl
@[simp] theorem State.exchanged_env (s : State) (i : Interrupt) (a : Half) : (s.exchanged i a).env = s.env := rfl
@[simp] theorem State.exchanged_install (s : State) (i : Interrupt) (a : Half) :
    (s.exchanged i a).install = s.install := rfl
@[simp] theorem State.exchanged_power (s : State) (i : Interrupt) (a : Half) :
    (s.exchanged i a).power = s.power := rfl
@[simp] theorem State.exchanged_runMode (s : State) (i : Interrupt) (a : Half) :
    (s.exchanged i a).runMode = s.runMode := rfl
@[simp] theorem State.exchanged_draws (s : State) (i : Interrupt) (a : Half) :
    (s.exchanged i a).draws = s.draws := rfl
@[simp] theorem State.exchanged_undisturbed (s : State) (i : Interrupt) (a : Half) :
    Undisturbed (s.exchanged i a) ↔ Undisturbed s := ⟨fun h => ⟨h.1, h.2⟩, fun h => ⟨h.1, h.2⟩⟩

/-! `State.setSignCC` -/

@[simp] theorem State.setSignCC_x (s : State) {n : Nat} (v : BitVec n) : (s.setSignCC v).x = s.x := rfl
@[simp] theorem State.setSignCC_reg (s : State) {n : Nat} (v : BitVec n) (q : RegNo) :
    (s.setSignCC v).reg q = s.reg q := rfl
@[simp] theorem State.setSignCC_pair (s : State) {n : Nat} (v : BitVec n) (q : RegNo) :
    (s.setSignCC v).pair q = s.pair q := rfl
@[simp] theorem State.setSignCC_quad (s : State) {n : Nat} (v : BitVec n) (q : RegNo) :
    (s.setSignCC v).quad q = s.quad q := rfl
@[simp] theorem State.setSignCC_control (s : State) {n : Nat} (v : BitVec n) :
    (s.setSignCC v).psw.control = s.psw.control := rfl
@[simp] theorem State.setSignCC_IB (s : State) {n : Nat} (v : BitVec n) : (s.setSignCC v).psw.IB = s.psw.IB := rfl
@[simp] theorem State.setSignCC_OB (s : State) {n : Nat} (v : BitVec n) : (s.setSignCC v).psw.OB = s.psw.OB := rfl
@[simp] theorem State.setSignCC_LOC (s : State) {n : Nat} (v : BitVec n) : (s.setSignCC v).psw.LOC = s.psw.LOC := rfl
@[simp] theorem State.setSignCC_mem (s : State) {n : Nat} (v : BitVec n) : (s.setSignCC v).mem = s.mem := rfl
@[simp] theorem State.setSignCC_byteAt (s : State) {n : Nat} (v : BitVec n) (bk : BankNo) (ad : Half) :
    (s.setSignCC v).byteAt bk ad = s.byteAt bk ad := rfl
@[simp] theorem State.setSignCC_halfAt (s : State) {n : Nat} (v : BitVec n) (bk : BankNo) (ad : Half) :
    (s.setSignCC v).halfAt bk ad = s.halfAt bk ad := rfl
@[simp] theorem State.setSignCC_fullAt (s : State) {n : Nat} (v : BitVec n) (bk : BankNo) (ad : Half) :
    (s.setSignCC v).fullAt bk ad = s.fullAt bk ad := rfl
@[simp] theorem State.setSignCC_cpr (s : State) {n : Nat} (v : BitVec n) : (s.setSignCC v).cpr = s.cpr := rfl
@[simp] theorem State.setSignCC_env (s : State) {n : Nat} (v : BitVec n) : (s.setSignCC v).env = s.env := rfl
@[simp] theorem State.setSignCC_install (s : State) {n : Nat} (v : BitVec n) :
    (s.setSignCC v).install = s.install := rfl
@[simp] theorem State.setSignCC_power (s : State) {n : Nat} (v : BitVec n) : (s.setSignCC v).power = s.power := rfl
@[simp] theorem State.setSignCC_runMode (s : State) {n : Nat} (v : BitVec n) :
    (s.setSignCC v).runMode = s.runMode := rfl
@[simp] theorem State.setSignCC_undisturbed (s : State) {n : Nat} (v : BitVec n) :
    Undisturbed (s.setSignCC v) ↔ Undisturbed s := ⟨fun h => ⟨h.1, h.2⟩, fun h => ⟨h.1, h.2⟩⟩
@[simp] theorem State.setSignCC_G (s : State) {n : Nat} (v : BitVec n) :
    (s.setSignCC v).psw.cc.G = isPositive v := rfl
@[simp] theorem State.setSignCC_L (s : State) {n : Nat} (v : BitVec n) :
    (s.setSignCC v).psw.cc.L = isNegative v := rfl

/-! `State.setLogicalCC` -/

@[simp] theorem State.setLogicalCC_x (s : State) {n : Nat} (v w : BitVec n) : (s.setLogicalCC v w).x = s.x := rfl
@[simp] theorem State.setLogicalCC_reg (s : State) {n : Nat} (v w : BitVec n) (q : RegNo) :
    (s.setLogicalCC v w).reg q = s.reg q := rfl
@[simp] theorem State.setLogicalCC_pair (s : State) {n : Nat} (v w : BitVec n) (q : RegNo) :
    (s.setLogicalCC v w).pair q = s.pair q := rfl
@[simp] theorem State.setLogicalCC_quad (s : State) {n : Nat} (v w : BitVec n) (q : RegNo) :
    (s.setLogicalCC v w).quad q = s.quad q := rfl
@[simp] theorem State.setLogicalCC_control (s : State) {n : Nat} (v w : BitVec n) :
    (s.setLogicalCC v w).psw.control = s.psw.control := rfl
@[simp] theorem State.setLogicalCC_IB (s : State) {n : Nat} (v w : BitVec n) :
    (s.setLogicalCC v w).psw.IB = s.psw.IB := rfl
@[simp] theorem State.setLogicalCC_OB (s : State) {n : Nat} (v w : BitVec n) :
    (s.setLogicalCC v w).psw.OB = s.psw.OB := rfl
@[simp] theorem State.setLogicalCC_LOC (s : State) {n : Nat} (v w : BitVec n) :
    (s.setLogicalCC v w).psw.LOC = s.psw.LOC := rfl
@[simp] theorem State.setLogicalCC_mem (s : State) {n : Nat} (v w : BitVec n) :
    (s.setLogicalCC v w).mem = s.mem := rfl
@[simp] theorem State.setLogicalCC_byteAt (s : State) {n : Nat} (v w : BitVec n) (bk : BankNo) (ad : Half) :
    (s.setLogicalCC v w).byteAt bk ad = s.byteAt bk ad := rfl
@[simp] theorem State.setLogicalCC_halfAt (s : State) {n : Nat} (v w : BitVec n) (bk : BankNo) (ad : Half) :
    (s.setLogicalCC v w).halfAt bk ad = s.halfAt bk ad := rfl
@[simp] theorem State.setLogicalCC_fullAt (s : State) {n : Nat} (v w : BitVec n) (bk : BankNo) (ad : Half) :
    (s.setLogicalCC v w).fullAt bk ad = s.fullAt bk ad := rfl
@[simp] theorem State.setLogicalCC_cpr (s : State) {n : Nat} (v w : BitVec n) :
    (s.setLogicalCC v w).cpr = s.cpr := rfl
@[simp] theorem State.setLogicalCC_env (s : State) {n : Nat} (v w : BitVec n) :
    (s.setLogicalCC v w).env = s.env := rfl
@[simp] theorem State.setLogicalCC_install (s : State) {n : Nat} (v w : BitVec n) :
    (s.setLogicalCC v w).install = s.install := rfl
@[simp] theorem State.setLogicalCC_power (s : State) {n : Nat} (v w : BitVec n) :
    (s.setLogicalCC v w).power = s.power := rfl
@[simp] theorem State.setLogicalCC_runMode (s : State) {n : Nat} (v w : BitVec n) :
    (s.setLogicalCC v w).runMode = s.runMode := rfl
@[simp] theorem State.setLogicalCC_undisturbed (s : State) {n : Nat} (v w : BitVec n) :
    Undisturbed (s.setLogicalCC v w) ↔ Undisturbed s := ⟨fun h => ⟨h.1, h.2⟩, fun h => ⟨h.1, h.2⟩⟩

/-! `State.setAlgebraicCC` -/

@[simp] theorem State.setAlgebraicCC_x (s : State) {n : Nat} (v w : BitVec n) : (s.setAlgebraicCC v w).x = s.x := rfl
@[simp] theorem State.setAlgebraicCC_reg (s : State) {n : Nat} (v w : BitVec n) (q : RegNo) :
    (s.setAlgebraicCC v w).reg q = s.reg q := rfl
@[simp] theorem State.setAlgebraicCC_pair (s : State) {n : Nat} (v w : BitVec n) (q : RegNo) :
    (s.setAlgebraicCC v w).pair q = s.pair q := rfl
@[simp] theorem State.setAlgebraicCC_quad (s : State) {n : Nat} (v w : BitVec n) (q : RegNo) :
    (s.setAlgebraicCC v w).quad q = s.quad q := rfl
@[simp] theorem State.setAlgebraicCC_control (s : State) {n : Nat} (v w : BitVec n) :
    (s.setAlgebraicCC v w).psw.control = s.psw.control := rfl
@[simp] theorem State.setAlgebraicCC_IB (s : State) {n : Nat} (v w : BitVec n) :
    (s.setAlgebraicCC v w).psw.IB = s.psw.IB := rfl
@[simp] theorem State.setAlgebraicCC_OB (s : State) {n : Nat} (v w : BitVec n) :
    (s.setAlgebraicCC v w).psw.OB = s.psw.OB := rfl
@[simp] theorem State.setAlgebraicCC_LOC (s : State) {n : Nat} (v w : BitVec n) :
    (s.setAlgebraicCC v w).psw.LOC = s.psw.LOC := rfl
@[simp] theorem State.setAlgebraicCC_mem (s : State) {n : Nat} (v w : BitVec n) :
    (s.setAlgebraicCC v w).mem = s.mem := rfl
@[simp] theorem State.setAlgebraicCC_byteAt (s : State) {n : Nat} (v w : BitVec n) (bk : BankNo) (ad : Half) :
    (s.setAlgebraicCC v w).byteAt bk ad = s.byteAt bk ad := rfl
@[simp] theorem State.setAlgebraicCC_halfAt (s : State) {n : Nat} (v w : BitVec n) (bk : BankNo) (ad : Half) :
    (s.setAlgebraicCC v w).halfAt bk ad = s.halfAt bk ad := rfl
@[simp] theorem State.setAlgebraicCC_fullAt (s : State) {n : Nat} (v w : BitVec n) (bk : BankNo) (ad : Half) :
    (s.setAlgebraicCC v w).fullAt bk ad = s.fullAt bk ad := rfl
@[simp] theorem State.setAlgebraicCC_cpr (s : State) {n : Nat} (v w : BitVec n) :
    (s.setAlgebraicCC v w).cpr = s.cpr := rfl
@[simp] theorem State.setAlgebraicCC_env (s : State) {n : Nat} (v w : BitVec n) :
    (s.setAlgebraicCC v w).env = s.env := rfl
@[simp] theorem State.setAlgebraicCC_install (s : State) {n : Nat} (v w : BitVec n) :
    (s.setAlgebraicCC v w).install = s.install := rfl
@[simp] theorem State.setAlgebraicCC_power (s : State) {n : Nat} (v w : BitVec n) :
    (s.setAlgebraicCC v w).power = s.power := rfl
@[simp] theorem State.setAlgebraicCC_runMode (s : State) {n : Nat} (v w : BitVec n) :
    (s.setAlgebraicCC v w).runMode = s.runMode := rfl
@[simp] theorem State.setAlgebraicCC_undisturbed (s : State) {n : Nat} (v w : BitVec n) :
    Undisturbed (s.setAlgebraicCC v w) ↔ Undisturbed s := ⟨fun h => ⟨h.1, h.2⟩, fun h => ⟨h.1, h.2⟩⟩

/-! `State.setByteCC` -/

@[simp] theorem State.setByteCC_x (s : State) (v w : Byte) : (s.setByteCC v w).x = s.x := rfl
@[simp] theorem State.setByteCC_reg (s : State) (v w : Byte) (q : RegNo) : (s.setByteCC v w).reg q = s.reg q := rfl
@[simp] theorem State.setByteCC_pair (s : State) (v w : Byte) (q : RegNo) : (s.setByteCC v w).pair q = s.pair q := rfl
@[simp] theorem State.setByteCC_quad (s : State) (v w : Byte) (q : RegNo) : (s.setByteCC v w).quad q = s.quad q := rfl
@[simp] theorem State.setByteCC_control (s : State) (v w : Byte) :
    (s.setByteCC v w).psw.control = s.psw.control := rfl
@[simp] theorem State.setByteCC_IB (s : State) (v w : Byte) : (s.setByteCC v w).psw.IB = s.psw.IB := rfl
@[simp] theorem State.setByteCC_OB (s : State) (v w : Byte) : (s.setByteCC v w).psw.OB = s.psw.OB := rfl
@[simp] theorem State.setByteCC_LOC (s : State) (v w : Byte) : (s.setByteCC v w).psw.LOC = s.psw.LOC := rfl
@[simp] theorem State.setByteCC_mem (s : State) (v w : Byte) : (s.setByteCC v w).mem = s.mem := rfl
@[simp] theorem State.setByteCC_byteAt (s : State) (v w : Byte) (bk : BankNo) (ad : Half) :
    (s.setByteCC v w).byteAt bk ad = s.byteAt bk ad := rfl
@[simp] theorem State.setByteCC_halfAt (s : State) (v w : Byte) (bk : BankNo) (ad : Half) :
    (s.setByteCC v w).halfAt bk ad = s.halfAt bk ad := rfl
@[simp] theorem State.setByteCC_fullAt (s : State) (v w : Byte) (bk : BankNo) (ad : Half) :
    (s.setByteCC v w).fullAt bk ad = s.fullAt bk ad := rfl
@[simp] theorem State.setByteCC_cpr (s : State) (v w : Byte) : (s.setByteCC v w).cpr = s.cpr := rfl
@[simp] theorem State.setByteCC_env (s : State) (v w : Byte) : (s.setByteCC v w).env = s.env := rfl
@[simp] theorem State.setByteCC_install (s : State) (v w : Byte) : (s.setByteCC v w).install = s.install := rfl
@[simp] theorem State.setByteCC_power (s : State) (v w : Byte) : (s.setByteCC v w).power = s.power := rfl
@[simp] theorem State.setByteCC_runMode (s : State) (v w : Byte) : (s.setByteCC v w).runMode = s.runMode := rfl
@[simp] theorem State.setByteCC_undisturbed (s : State) (v w : Byte) :
    Undisturbed (s.setByteCC v w) ↔ Undisturbed s := ⟨fun h => ⟨h.1, h.2⟩, fun h => ⟨h.1, h.2⟩⟩

/-! `State.setFloatCC` -/

@[simp] theorem State.setFloatCC_x (s : State) (chart : FloatChart) (r : FloatResult) :
    (s.setFloatCC chart r).x = s.x := rfl
@[simp] theorem State.setFloatCC_reg (s : State) (chart : FloatChart) (r : FloatResult) (q : RegNo) :
    (s.setFloatCC chart r).reg q = s.reg q := rfl
@[simp] theorem State.setFloatCC_pair (s : State) (chart : FloatChart) (r : FloatResult) (q : RegNo) :
    (s.setFloatCC chart r).pair q = s.pair q := rfl
@[simp] theorem State.setFloatCC_quad (s : State) (chart : FloatChart) (r : FloatResult) (q : RegNo) :
    (s.setFloatCC chart r).quad q = s.quad q := rfl
@[simp] theorem State.setFloatCC_control (s : State) (chart : FloatChart) (r : FloatResult) :
    (s.setFloatCC chart r).psw.control = s.psw.control := rfl
@[simp] theorem State.setFloatCC_IB (s : State) (chart : FloatChart) (r : FloatResult) :
    (s.setFloatCC chart r).psw.IB = s.psw.IB := rfl
@[simp] theorem State.setFloatCC_OB (s : State) (chart : FloatChart) (r : FloatResult) :
    (s.setFloatCC chart r).psw.OB = s.psw.OB := rfl
@[simp] theorem State.setFloatCC_LOC (s : State) (chart : FloatChart) (r : FloatResult) :
    (s.setFloatCC chart r).psw.LOC = s.psw.LOC := rfl
@[simp] theorem State.setFloatCC_mem (s : State) (chart : FloatChart) (r : FloatResult) :
    (s.setFloatCC chart r).mem = s.mem := rfl
@[simp] theorem State.setFloatCC_byteAt (s : State) (chart : FloatChart) (r : FloatResult) (bk : BankNo) (ad : Half) :
    (s.setFloatCC chart r).byteAt bk ad = s.byteAt bk ad := rfl
@[simp] theorem State.setFloatCC_halfAt (s : State) (chart : FloatChart) (r : FloatResult) (bk : BankNo) (ad : Half) :
    (s.setFloatCC chart r).halfAt bk ad = s.halfAt bk ad := rfl
@[simp] theorem State.setFloatCC_fullAt (s : State) (chart : FloatChart) (r : FloatResult) (bk : BankNo) (ad : Half) :
    (s.setFloatCC chart r).fullAt bk ad = s.fullAt bk ad := rfl
@[simp] theorem State.setFloatCC_cpr (s : State) (chart : FloatChart) (r : FloatResult) :
    (s.setFloatCC chart r).cpr = s.cpr := rfl
@[simp] theorem State.setFloatCC_env (s : State) (chart : FloatChart) (r : FloatResult) :
    (s.setFloatCC chart r).env = s.env := rfl
@[simp] theorem State.setFloatCC_install (s : State) (chart : FloatChart) (r : FloatResult) :
    (s.setFloatCC chart r).install = s.install := rfl
@[simp] theorem State.setFloatCC_power (s : State) (chart : FloatChart) (r : FloatResult) :
    (s.setFloatCC chart r).power = s.power := rfl
@[simp] theorem State.setFloatCC_runMode (s : State) (chart : FloatChart) (r : FloatResult) :
    (s.setFloatCC chart r).runMode = s.runMode := rfl
@[simp] theorem State.setFloatCC_undisturbed (s : State) (chart : FloatChart) (r : FloatResult) :
    Undisturbed (s.setFloatCC chart r) ↔ Undisturbed s := ⟨fun h => ⟨h.1, h.2⟩, fun h => ⟨h.1, h.2⟩⟩

/-! `State.setDataCC` -/

@[simp] theorem State.setDataCC_x (s : State) (v : Bool) : (s.setDataCC v).x = s.x := rfl
@[simp] theorem State.setDataCC_reg (s : State) (v : Bool) (q : RegNo) : (s.setDataCC v).reg q = s.reg q := rfl
@[simp] theorem State.setDataCC_pair (s : State) (v : Bool) (q : RegNo) : (s.setDataCC v).pair q = s.pair q := rfl
@[simp] theorem State.setDataCC_quad (s : State) (v : Bool) (q : RegNo) : (s.setDataCC v).quad q = s.quad q := rfl
@[simp] theorem State.setDataCC_control (s : State) (v : Bool) : (s.setDataCC v).psw.control = s.psw.control := rfl
@[simp] theorem State.setDataCC_IB (s : State) (v : Bool) : (s.setDataCC v).psw.IB = s.psw.IB := rfl
@[simp] theorem State.setDataCC_OB (s : State) (v : Bool) : (s.setDataCC v).psw.OB = s.psw.OB := rfl
@[simp] theorem State.setDataCC_LOC (s : State) (v : Bool) : (s.setDataCC v).psw.LOC = s.psw.LOC := rfl
@[simp] theorem State.setDataCC_mem (s : State) (v : Bool) : (s.setDataCC v).mem = s.mem := rfl
@[simp] theorem State.setDataCC_byteAt (s : State) (v : Bool) (bk : BankNo) (ad : Half) :
    (s.setDataCC v).byteAt bk ad = s.byteAt bk ad := rfl
@[simp] theorem State.setDataCC_halfAt (s : State) (v : Bool) (bk : BankNo) (ad : Half) :
    (s.setDataCC v).halfAt bk ad = s.halfAt bk ad := rfl
@[simp] theorem State.setDataCC_fullAt (s : State) (v : Bool) (bk : BankNo) (ad : Half) :
    (s.setDataCC v).fullAt bk ad = s.fullAt bk ad := rfl
@[simp] theorem State.setDataCC_cpr (s : State) (v : Bool) : (s.setDataCC v).cpr = s.cpr := rfl
@[simp] theorem State.setDataCC_env (s : State) (v : Bool) : (s.setDataCC v).env = s.env := rfl
@[simp] theorem State.setDataCC_install (s : State) (v : Bool) : (s.setDataCC v).install = s.install := rfl
@[simp] theorem State.setDataCC_power (s : State) (v : Bool) : (s.setDataCC v).power = s.power := rfl
@[simp] theorem State.setDataCC_runMode (s : State) (v : Bool) : (s.setDataCC v).runMode = s.runMode := rfl
@[simp] theorem State.setDataCC_undisturbed (s : State) (v : Bool) :
    Undisturbed (s.setDataCC v) ↔ Undisturbed s := ⟨fun h => ⟨h.1, h.2⟩, fun h => ⟨h.1, h.2⟩⟩
@[simp] theorem State.setDataCC_V (s : State) (v : Bool) : (s.setDataCC v).psw.cc.V = v := rfl

/-! `State.setStatusCC` -/

@[simp] theorem State.setStatusCC_x (s : State) (v : Byte) : (s.setStatusCC v).x = s.x := rfl
@[simp] theorem State.setStatusCC_reg (s : State) (v : Byte) (q : RegNo) : (s.setStatusCC v).reg q = s.reg q := rfl
@[simp] theorem State.setStatusCC_pair (s : State) (v : Byte) (q : RegNo) : (s.setStatusCC v).pair q = s.pair q := rfl
@[simp] theorem State.setStatusCC_quad (s : State) (v : Byte) (q : RegNo) : (s.setStatusCC v).quad q = s.quad q := rfl
@[simp] theorem State.setStatusCC_control (s : State) (v : Byte) :
    (s.setStatusCC v).psw.control = s.psw.control := rfl
@[simp] theorem State.setStatusCC_IB (s : State) (v : Byte) : (s.setStatusCC v).psw.IB = s.psw.IB := rfl
@[simp] theorem State.setStatusCC_OB (s : State) (v : Byte) : (s.setStatusCC v).psw.OB = s.psw.OB := rfl
@[simp] theorem State.setStatusCC_LOC (s : State) (v : Byte) : (s.setStatusCC v).psw.LOC = s.psw.LOC := rfl
@[simp] theorem State.setStatusCC_mem (s : State) (v : Byte) : (s.setStatusCC v).mem = s.mem := rfl
@[simp] theorem State.setStatusCC_byteAt (s : State) (v : Byte) (bk : BankNo) (ad : Half) :
    (s.setStatusCC v).byteAt bk ad = s.byteAt bk ad := rfl
@[simp] theorem State.setStatusCC_halfAt (s : State) (v : Byte) (bk : BankNo) (ad : Half) :
    (s.setStatusCC v).halfAt bk ad = s.halfAt bk ad := rfl
@[simp] theorem State.setStatusCC_fullAt (s : State) (v : Byte) (bk : BankNo) (ad : Half) :
    (s.setStatusCC v).fullAt bk ad = s.fullAt bk ad := rfl
@[simp] theorem State.setStatusCC_cpr (s : State) (v : Byte) : (s.setStatusCC v).cpr = s.cpr := rfl
@[simp] theorem State.setStatusCC_env (s : State) (v : Byte) : (s.setStatusCC v).env = s.env := rfl
@[simp] theorem State.setStatusCC_install (s : State) (v : Byte) : (s.setStatusCC v).install = s.install := rfl
@[simp] theorem State.setStatusCC_power (s : State) (v : Byte) : (s.setStatusCC v).power = s.power := rfl
@[simp] theorem State.setStatusCC_runMode (s : State) (v : Byte) : (s.setStatusCC v).runMode = s.runMode := rfl
@[simp] theorem State.setStatusCC_draws (s : State) (v : Byte) : (s.setStatusCC v).draws = s.draws := rfl
@[simp] theorem State.setStatusCC_undisturbed (s : State) (v : Byte) :
    Undisturbed (s.setStatusCC v) ↔ Undisturbed s := ⟨fun h => ⟨h.1, h.2⟩, fun h => ⟨h.1, h.2⟩⟩
@[simp] theorem State.setStatusCC_cc (s : State) (v : Byte) :
    (s.setStatusCC v).psw.cc = CC.ofBits (statusNibble v) := rfl

/-! `State.setTrigCC` -/

@[simp] theorem State.setTrigCC_x (s : State) (v : Bool) : (s.setTrigCC v).x = s.x := rfl
@[simp] theorem State.setTrigCC_reg (s : State) (v : Bool) (q : RegNo) : (s.setTrigCC v).reg q = s.reg q := rfl
@[simp] theorem State.setTrigCC_pair (s : State) (v : Bool) (q : RegNo) : (s.setTrigCC v).pair q = s.pair q := rfl
@[simp] theorem State.setTrigCC_quad (s : State) (v : Bool) (q : RegNo) : (s.setTrigCC v).quad q = s.quad q := rfl
@[simp] theorem State.setTrigCC_control (s : State) (v : Bool) : (s.setTrigCC v).psw.control = s.psw.control := rfl
@[simp] theorem State.setTrigCC_IB (s : State) (v : Bool) : (s.setTrigCC v).psw.IB = s.psw.IB := rfl
@[simp] theorem State.setTrigCC_OB (s : State) (v : Bool) : (s.setTrigCC v).psw.OB = s.psw.OB := rfl
@[simp] theorem State.setTrigCC_LOC (s : State) (v : Bool) : (s.setTrigCC v).psw.LOC = s.psw.LOC := rfl
@[simp] theorem State.setTrigCC_mem (s : State) (v : Bool) : (s.setTrigCC v).mem = s.mem := rfl
@[simp] theorem State.setTrigCC_byteAt (s : State) (v : Bool) (bk : BankNo) (ad : Half) :
    (s.setTrigCC v).byteAt bk ad = s.byteAt bk ad := rfl
@[simp] theorem State.setTrigCC_halfAt (s : State) (v : Bool) (bk : BankNo) (ad : Half) :
    (s.setTrigCC v).halfAt bk ad = s.halfAt bk ad := rfl
@[simp] theorem State.setTrigCC_fullAt (s : State) (v : Bool) (bk : BankNo) (ad : Half) :
    (s.setTrigCC v).fullAt bk ad = s.fullAt bk ad := rfl
@[simp] theorem State.setTrigCC_cpr (s : State) (v : Bool) : (s.setTrigCC v).cpr = s.cpr := rfl
@[simp] theorem State.setTrigCC_env (s : State) (v : Bool) : (s.setTrigCC v).env = s.env := rfl
@[simp] theorem State.setTrigCC_install (s : State) (v : Bool) : (s.setTrigCC v).install = s.install := rfl
@[simp] theorem State.setTrigCC_power (s : State) (v : Bool) : (s.setTrigCC v).power = s.power := rfl
@[simp] theorem State.setTrigCC_runMode (s : State) (v : Bool) : (s.setTrigCC v).runMode = s.runMode := rfl
@[simp] theorem State.setTrigCC_undisturbed (s : State) (v : Bool) :
    Undisturbed (s.setTrigCC v) ↔ Undisturbed s := ⟨fun h => ⟨h.1, h.2⟩, fun h => ⟨h.1, h.2⟩⟩
@[simp] theorem State.setTrigCC_V (s : State) (v : Bool) : (s.setTrigCC v).psw.cc.V = v := rfl

/-! `State.setRotateCC` -/

@[simp] theorem State.setRotateCC_x (s : State) (v : Full) : (s.setRotateCC v).x = s.x := rfl
@[simp] theorem State.setRotateCC_reg (s : State) (v : Full) (q : RegNo) : (s.setRotateCC v).reg q = s.reg q := rfl
@[simp] theorem State.setRotateCC_pair (s : State) (v : Full) (q : RegNo) : (s.setRotateCC v).pair q = s.pair q := rfl
@[simp] theorem State.setRotateCC_quad (s : State) (v : Full) (q : RegNo) : (s.setRotateCC v).quad q = s.quad q := rfl
@[simp] theorem State.setRotateCC_control (s : State) (v : Full) :
    (s.setRotateCC v).psw.control = s.psw.control := rfl
@[simp] theorem State.setRotateCC_IB (s : State) (v : Full) : (s.setRotateCC v).psw.IB = s.psw.IB := rfl
@[simp] theorem State.setRotateCC_OB (s : State) (v : Full) : (s.setRotateCC v).psw.OB = s.psw.OB := rfl
@[simp] theorem State.setRotateCC_LOC (s : State) (v : Full) : (s.setRotateCC v).psw.LOC = s.psw.LOC := rfl
@[simp] theorem State.setRotateCC_mem (s : State) (v : Full) : (s.setRotateCC v).mem = s.mem := rfl
@[simp] theorem State.setRotateCC_byteAt (s : State) (v : Full) (bk : BankNo) (ad : Half) :
    (s.setRotateCC v).byteAt bk ad = s.byteAt bk ad := rfl
@[simp] theorem State.setRotateCC_halfAt (s : State) (v : Full) (bk : BankNo) (ad : Half) :
    (s.setRotateCC v).halfAt bk ad = s.halfAt bk ad := rfl
@[simp] theorem State.setRotateCC_fullAt (s : State) (v : Full) (bk : BankNo) (ad : Half) :
    (s.setRotateCC v).fullAt bk ad = s.fullAt bk ad := rfl
@[simp] theorem State.setRotateCC_cpr (s : State) (v : Full) : (s.setRotateCC v).cpr = s.cpr := rfl
@[simp] theorem State.setRotateCC_env (s : State) (v : Full) : (s.setRotateCC v).env = s.env := rfl
@[simp] theorem State.setRotateCC_install (s : State) (v : Full) : (s.setRotateCC v).install = s.install := rfl
@[simp] theorem State.setRotateCC_power (s : State) (v : Full) : (s.setRotateCC v).power = s.power := rfl
@[simp] theorem State.setRotateCC_runMode (s : State) (v : Full) : (s.setRotateCC v).runMode = s.runMode := rfl
@[simp] theorem State.setRotateCC_draws (s : State) (v : Full) : (s.setRotateCC v).draws = s.draws := rfl
@[simp] theorem State.setRotateCC_undisturbed (s : State) (v : Full) :
    Undisturbed (s.setRotateCC v) ↔ Undisturbed s := ⟨fun h => ⟨h.1, h.2⟩, fun h => ⟨h.1, h.2⟩⟩

/-! `State.called` -/

@[simp] theorem State.called_x (s : State) (c : DevCall) : (s.called c).x = s.x := rfl
@[simp] theorem State.called_reg (s : State) (c : DevCall) (q : RegNo) : (s.called c).reg q = s.reg q := rfl
@[simp] theorem State.called_pair (s : State) (c : DevCall) (q : RegNo) : (s.called c).pair q = s.pair q := rfl
@[simp] theorem State.called_quad (s : State) (c : DevCall) (q : RegNo) : (s.called c).quad q = s.quad q := rfl
@[simp] theorem State.called_psw (s : State) (c : DevCall) : (s.called c).psw = s.psw := rfl
@[simp] theorem State.called_mem (s : State) (c : DevCall) : (s.called c).mem = s.mem := rfl
@[simp] theorem State.called_byteAt (s : State) (c : DevCall) (bk : BankNo) (ad : Half) :
    (s.called c).byteAt bk ad = s.byteAt bk ad := rfl
@[simp] theorem State.called_halfAt (s : State) (c : DevCall) (bk : BankNo) (ad : Half) :
    (s.called c).halfAt bk ad = s.halfAt bk ad := rfl
@[simp] theorem State.called_fullAt (s : State) (c : DevCall) (bk : BankNo) (ad : Half) :
    (s.called c).fullAt bk ad = s.fullAt bk ad := rfl
@[simp] theorem State.called_cpr (s : State) (c : DevCall) : (s.called c).cpr = s.cpr := rfl
@[simp] theorem State.called_install (s : State) (c : DevCall) : (s.called c).install = s.install := rfl
@[simp] theorem State.called_power (s : State) (c : DevCall) : (s.called c).power = s.power := rfl
@[simp] theorem State.called_runMode (s : State) (c : DevCall) : (s.called c).runMode = s.runMode := rfl
@[simp] theorem State.called_draws (s : State) (c : DevCall) : (s.called c).draws = s.draws := rfl
@[simp] theorem State.called_undisturbed (s : State) (c : DevCall) :
    Undisturbed (s.called c) ↔ Undisturbed s := ⟨fun h => ⟨h.1, h.2⟩, fun h => ⟨h.1, h.2⟩⟩

/-! `State.afterSelect` -/

@[simp] theorem State.afterSelect_x (s : State) (d : Byte) : (s.afterSelect d).x = s.x := rfl
@[simp] theorem State.afterSelect_reg (s : State) (d : Byte) (q : RegNo) : (s.afterSelect d).reg q = s.reg q := rfl
@[simp] theorem State.afterSelect_pair (s : State) (d : Byte) (q : RegNo) : (s.afterSelect d).pair q = s.pair q := rfl
@[simp] theorem State.afterSelect_quad (s : State) (d : Byte) (q : RegNo) : (s.afterSelect d).quad q = s.quad q := rfl
@[simp] theorem State.afterSelect_psw (s : State) (d : Byte) : (s.afterSelect d).psw = s.psw := rfl
@[simp] theorem State.afterSelect_mem (s : State) (d : Byte) : (s.afterSelect d).mem = s.mem := rfl
@[simp] theorem State.afterSelect_byteAt (s : State) (d : Byte) (bk : BankNo) (ad : Half) :
    (s.afterSelect d).byteAt bk ad = s.byteAt bk ad := rfl
@[simp] theorem State.afterSelect_halfAt (s : State) (d : Byte) (bk : BankNo) (ad : Half) :
    (s.afterSelect d).halfAt bk ad = s.halfAt bk ad := rfl
@[simp] theorem State.afterSelect_fullAt (s : State) (d : Byte) (bk : BankNo) (ad : Half) :
    (s.afterSelect d).fullAt bk ad = s.fullAt bk ad := rfl
@[simp] theorem State.afterSelect_cpr (s : State) (d : Byte) : (s.afterSelect d).cpr = s.cpr := rfl
@[simp] theorem State.afterSelect_install (s : State) (d : Byte) : (s.afterSelect d).install = s.install := rfl
@[simp] theorem State.afterSelect_power (s : State) (d : Byte) : (s.afterSelect d).power = s.power := rfl
@[simp] theorem State.afterSelect_runMode (s : State) (d : Byte) : (s.afterSelect d).runMode = s.runMode := rfl
@[simp] theorem State.afterSelect_draws (s : State) (d : Byte) : (s.afterSelect d).draws = s.draws := rfl
@[simp] theorem State.afterSelect_undisturbed (s : State) (d : Byte) :
    Undisturbed (s.afterSelect d) ↔ Undisturbed s := ⟨fun h => ⟨h.1, h.2⟩, fun h => ⟨h.1, h.2⟩⟩

/-! `State.afterStatus` -/

@[simp] theorem State.afterStatus_x (s : State) (d : Byte) : (s.afterStatus d).x = s.x := rfl
@[simp] theorem State.afterStatus_reg (s : State) (d : Byte) (q : RegNo) : (s.afterStatus d).reg q = s.reg q := rfl
@[simp] theorem State.afterStatus_pair (s : State) (d : Byte) (q : RegNo) : (s.afterStatus d).pair q = s.pair q := rfl
@[simp] theorem State.afterStatus_quad (s : State) (d : Byte) (q : RegNo) : (s.afterStatus d).quad q = s.quad q := rfl
@[simp] theorem State.afterStatus_psw (s : State) (d : Byte) : (s.afterStatus d).psw = s.psw := rfl
@[simp] theorem State.afterStatus_mem (s : State) (d : Byte) : (s.afterStatus d).mem = s.mem := rfl
@[simp] theorem State.afterStatus_byteAt (s : State) (d : Byte) (bk : BankNo) (ad : Half) :
    (s.afterStatus d).byteAt bk ad = s.byteAt bk ad := rfl
@[simp] theorem State.afterStatus_halfAt (s : State) (d : Byte) (bk : BankNo) (ad : Half) :
    (s.afterStatus d).halfAt bk ad = s.halfAt bk ad := rfl
@[simp] theorem State.afterStatus_fullAt (s : State) (d : Byte) (bk : BankNo) (ad : Half) :
    (s.afterStatus d).fullAt bk ad = s.fullAt bk ad := rfl
@[simp] theorem State.afterStatus_cpr (s : State) (d : Byte) : (s.afterStatus d).cpr = s.cpr := rfl
@[simp] theorem State.afterStatus_install (s : State) (d : Byte) : (s.afterStatus d).install = s.install := rfl
@[simp] theorem State.afterStatus_power (s : State) (d : Byte) : (s.afterStatus d).power = s.power := rfl
@[simp] theorem State.afterStatus_runMode (s : State) (d : Byte) : (s.afterStatus d).runMode = s.runMode := rfl
@[simp] theorem State.afterStatus_draws (s : State) (d : Byte) : (s.afterStatus d).draws = s.draws := rfl
@[simp] theorem State.afterStatus_undisturbed (s : State) (d : Byte) :
    Undisturbed (s.afterStatus d) ↔ Undisturbed s := ⟨fun h => ⟨h.1, h.2⟩, fun h => ⟨h.1, h.2⟩⟩

/-! `State.afterCommand` -/

@[simp] theorem State.afterCommand_x (s : State) (d b : Byte) : (s.afterCommand d b).x = s.x := rfl
@[simp] theorem State.afterCommand_reg (s : State) (d b : Byte) (q : RegNo) :
    (s.afterCommand d b).reg q = s.reg q := rfl
@[simp] theorem State.afterCommand_pair (s : State) (d b : Byte) (q : RegNo) :
    (s.afterCommand d b).pair q = s.pair q := rfl
@[simp] theorem State.afterCommand_quad (s : State) (d b : Byte) (q : RegNo) :
    (s.afterCommand d b).quad q = s.quad q := rfl
@[simp] theorem State.afterCommand_psw (s : State) (d b : Byte) : (s.afterCommand d b).psw = s.psw := rfl
@[simp] theorem State.afterCommand_mem (s : State) (d b : Byte) : (s.afterCommand d b).mem = s.mem := rfl
@[simp] theorem State.afterCommand_byteAt (s : State) (d b : Byte) (bk : BankNo) (ad : Half) :
    (s.afterCommand d b).byteAt bk ad = s.byteAt bk ad := rfl
@[simp] theorem State.afterCommand_halfAt (s : State) (d b : Byte) (bk : BankNo) (ad : Half) :
    (s.afterCommand d b).halfAt bk ad = s.halfAt bk ad := rfl
@[simp] theorem State.afterCommand_fullAt (s : State) (d b : Byte) (bk : BankNo) (ad : Half) :
    (s.afterCommand d b).fullAt bk ad = s.fullAt bk ad := rfl
@[simp] theorem State.afterCommand_cpr (s : State) (d b : Byte) : (s.afterCommand d b).cpr = s.cpr := rfl
@[simp] theorem State.afterCommand_install (s : State) (d b : Byte) : (s.afterCommand d b).install = s.install := rfl
@[simp] theorem State.afterCommand_power (s : State) (d b : Byte) : (s.afterCommand d b).power = s.power := rfl
@[simp] theorem State.afterCommand_runMode (s : State) (d b : Byte) : (s.afterCommand d b).runMode = s.runMode := rfl
@[simp] theorem State.afterCommand_draws (s : State) (d b : Byte) : (s.afterCommand d b).draws = s.draws := rfl
@[simp] theorem State.afterCommand_undisturbed (s : State) (d b : Byte) :
    Undisturbed (s.afterCommand d b) ↔ Undisturbed s := ⟨fun h => ⟨h.1, h.2⟩, fun h => ⟨h.1, h.2⟩⟩

/-! `State.afterRead` -/

@[simp] theorem State.afterRead_x (s : State) (d : Byte) : (s.afterRead d).x = s.x := rfl
@[simp] theorem State.afterRead_reg (s : State) (d : Byte) (q : RegNo) : (s.afterRead d).reg q = s.reg q := rfl
@[simp] theorem State.afterRead_pair (s : State) (d : Byte) (q : RegNo) : (s.afterRead d).pair q = s.pair q := rfl
@[simp] theorem State.afterRead_quad (s : State) (d : Byte) (q : RegNo) : (s.afterRead d).quad q = s.quad q := rfl
@[simp] theorem State.afterRead_psw (s : State) (d : Byte) : (s.afterRead d).psw = s.psw := rfl
@[simp] theorem State.afterRead_mem (s : State) (d : Byte) : (s.afterRead d).mem = s.mem := rfl
@[simp] theorem State.afterRead_byteAt (s : State) (d : Byte) (bk : BankNo) (ad : Half) :
    (s.afterRead d).byteAt bk ad = s.byteAt bk ad := rfl
@[simp] theorem State.afterRead_halfAt (s : State) (d : Byte) (bk : BankNo) (ad : Half) :
    (s.afterRead d).halfAt bk ad = s.halfAt bk ad := rfl
@[simp] theorem State.afterRead_fullAt (s : State) (d : Byte) (bk : BankNo) (ad : Half) :
    (s.afterRead d).fullAt bk ad = s.fullAt bk ad := rfl
@[simp] theorem State.afterRead_cpr (s : State) (d : Byte) : (s.afterRead d).cpr = s.cpr := rfl
@[simp] theorem State.afterRead_install (s : State) (d : Byte) : (s.afterRead d).install = s.install := rfl
@[simp] theorem State.afterRead_power (s : State) (d : Byte) : (s.afterRead d).power = s.power := rfl
@[simp] theorem State.afterRead_runMode (s : State) (d : Byte) : (s.afterRead d).runMode = s.runMode := rfl
@[simp] theorem State.afterRead_undisturbed (s : State) (d : Byte) :
    Undisturbed (s.afterRead d) ↔ Undisturbed s := ⟨fun h => ⟨h.1, h.2⟩, fun h => ⟨h.1, h.2⟩⟩

/-! `State.afterReadHalf` -/

@[simp] theorem State.afterReadHalf_x (s : State) (d : Byte) : (s.afterReadHalf d).x = s.x := rfl
@[simp] theorem State.afterReadHalf_reg (s : State) (d : Byte) (q : RegNo) :
    (s.afterReadHalf d).reg q = s.reg q := rfl
@[simp] theorem State.afterReadHalf_pair (s : State) (d : Byte) (q : RegNo) :
    (s.afterReadHalf d).pair q = s.pair q := rfl
@[simp] theorem State.afterReadHalf_quad (s : State) (d : Byte) (q : RegNo) :
    (s.afterReadHalf d).quad q = s.quad q := rfl
@[simp] theorem State.afterReadHalf_psw (s : State) (d : Byte) : (s.afterReadHalf d).psw = s.psw := rfl
@[simp] theorem State.afterReadHalf_mem (s : State) (d : Byte) : (s.afterReadHalf d).mem = s.mem := rfl
@[simp] theorem State.afterReadHalf_byteAt (s : State) (d : Byte) (bk : BankNo) (ad : Half) :
    (s.afterReadHalf d).byteAt bk ad = s.byteAt bk ad := rfl
@[simp] theorem State.afterReadHalf_halfAt (s : State) (d : Byte) (bk : BankNo) (ad : Half) :
    (s.afterReadHalf d).halfAt bk ad = s.halfAt bk ad := rfl
@[simp] theorem State.afterReadHalf_fullAt (s : State) (d : Byte) (bk : BankNo) (ad : Half) :
    (s.afterReadHalf d).fullAt bk ad = s.fullAt bk ad := rfl
@[simp] theorem State.afterReadHalf_cpr (s : State) (d : Byte) : (s.afterReadHalf d).cpr = s.cpr := rfl
@[simp] theorem State.afterReadHalf_install (s : State) (d : Byte) : (s.afterReadHalf d).install = s.install := rfl
@[simp] theorem State.afterReadHalf_power (s : State) (d : Byte) : (s.afterReadHalf d).power = s.power := rfl
@[simp] theorem State.afterReadHalf_runMode (s : State) (d : Byte) : (s.afterReadHalf d).runMode = s.runMode := rfl
@[simp] theorem State.afterReadHalf_undisturbed (s : State) (d : Byte) :
    Undisturbed (s.afterReadHalf d) ↔ Undisturbed s := ⟨fun h => ⟨h.1, h.2⟩, fun h => ⟨h.1, h.2⟩⟩

/-! `State.afterAcknowledge` -/

@[simp] theorem State.afterAcknowledge_x (s : State) : (s.afterAcknowledge).x = s.x := rfl
@[simp] theorem State.afterAcknowledge_reg (s : State) (q : RegNo) : (s.afterAcknowledge).reg q = s.reg q := rfl
@[simp] theorem State.afterAcknowledge_pair (s : State) (q : RegNo) : (s.afterAcknowledge).pair q = s.pair q := rfl
@[simp] theorem State.afterAcknowledge_quad (s : State) (q : RegNo) : (s.afterAcknowledge).quad q = s.quad q := rfl
@[simp] theorem State.afterAcknowledge_psw (s : State) : (s.afterAcknowledge).psw = s.psw := rfl
@[simp] theorem State.afterAcknowledge_mem (s : State) : (s.afterAcknowledge).mem = s.mem := rfl
@[simp] theorem State.afterAcknowledge_byteAt (s : State) (bk : BankNo) (ad : Half) :
    (s.afterAcknowledge).byteAt bk ad = s.byteAt bk ad := rfl
@[simp] theorem State.afterAcknowledge_halfAt (s : State) (bk : BankNo) (ad : Half) :
    (s.afterAcknowledge).halfAt bk ad = s.halfAt bk ad := rfl
@[simp] theorem State.afterAcknowledge_fullAt (s : State) (bk : BankNo) (ad : Half) :
    (s.afterAcknowledge).fullAt bk ad = s.fullAt bk ad := rfl
@[simp] theorem State.afterAcknowledge_cpr (s : State) : (s.afterAcknowledge).cpr = s.cpr := rfl
@[simp] theorem State.afterAcknowledge_install (s : State) : (s.afterAcknowledge).install = s.install := rfl
@[simp] theorem State.afterAcknowledge_power (s : State) : (s.afterAcknowledge).power = s.power := rfl
@[simp] theorem State.afterAcknowledge_runMode (s : State) : (s.afterAcknowledge).runMode = s.runMode := rfl
@[simp] theorem State.afterAcknowledge_draws (s : State) : (s.afterAcknowledge).draws = s.draws := rfl
@[simp] theorem State.afterAcknowledge_undisturbed (s : State) :
    Undisturbed (s.afterAcknowledge) ↔ Undisturbed s := ⟨fun h => ⟨h.1, h.2⟩, fun h => ⟨h.1, h.2⟩⟩

end Sys2Proof.Machine
end

