-- ==== Sys2Proof/Laws/Memory.lean ====
section
/-! SUPPORT. The laws of memory and of the register file: reads after writes, the canonical form, and wider accesses from
bytes. -/

namespace Sys2Proof.Machine

/-! ## The list -/

theorem Memory.read_insert (m : List Host.Cell) (a a' : Nat) (v : Byte) :
    Memory.read (Memory.insert m a v) a' = if a = a' then v else Memory.read m a' := by
  induction m with
  | nil => simp [Memory.insert, Memory.read]
  | cons e rest ih =>
    obtain ⟨k, w⟩ := e
    simp only [Memory.insert]
    split_ifs with h1 h2 h3 h4 <;> simp_all [Memory.read]
    intro h; omega

theorem Memory.read_erase (m : List Host.Cell) (a a' : Nat) :
    Memory.read (Memory.erase m a) a' = if a = a' then background else Memory.read m a' := by
  induction m with
  | nil => simp [Memory.erase, Memory.read]
  | cons e rest ih =>
    obtain ⟨k, w⟩ := e
    simp only [Memory.erase]
    split_ifs with h1 h2 <;> simp_all [Memory.read]

theorem Memory.read_write (m : List Host.Cell) (a a' : Nat) (v : Byte) :
    Memory.read (Memory.write m a v) a' = if a = a' then v else Memory.read m a' := by
  unfold Memory.write
  split_ifs with h1 h2 h3 <;> simp_all [Memory.read_insert, Memory.read_erase]

theorem Memory.wfFrom_mono {low low' : Nat} {m : List Host.Cell} (h : low ≤ low') (w : Memory.wfFrom low' m = true) :
    Memory.wfFrom low m = true := by
  cases m with
  | nil => rfl
  | cons e rest =>
    obtain ⟨k, u⟩ := e
    simp only [Memory.wfFrom, Bool.and_eq_true, decide_eq_true_eq] at w ⊢
    exact ⟨⟨⟨by omega, w.1.1.2⟩, w.1.2⟩, w.2⟩

theorem Memory.wfFrom_insert {low : Nat} {m : List Host.Cell} {a : Nat} {v : Byte} (hl : low ≤ a) (ha : a < 262144)
    (hv : v ≠ background) (w : Memory.wfFrom low m = true) : Memory.wfFrom low (Memory.insert m a v) = true := by
  induction m generalizing low with
  | nil => simp [Memory.insert, Memory.wfFrom, *]
  | cons e rest ih =>
    obtain ⟨k, u⟩ := e
    simp only [Memory.wfFrom, Bool.and_eq_true, decide_eq_true_eq] at w
    obtain ⟨⟨⟨h1, h2⟩, h3⟩, h4⟩ := w
    simp only [Memory.insert]
    split_ifs with c1 c2
    · simp only [Memory.wfFrom, Bool.and_eq_true, decide_eq_true_eq]
      exact ⟨⟨⟨hl, ha⟩, hv⟩, ⟨⟨by omega, h2⟩, h3⟩, h4⟩
    · subst c2
      simp only [Memory.wfFrom, Bool.and_eq_true, decide_eq_true_eq]
      exact ⟨⟨⟨h1, h2⟩, hv⟩, h4⟩
    · simp only [Memory.wfFrom, Bool.and_eq_true, decide_eq_true_eq]
      exact ⟨⟨⟨h1, h2⟩, h3⟩, ih (by omega) h4⟩

theorem Memory.wfFrom_erase {low : Nat} {m : List Host.Cell} {a : Nat} (w : Memory.wfFrom low m = true) :
    Memory.wfFrom low (Memory.erase m a) = true := by
  induction m generalizing low with
  | nil => rfl
  | cons e rest ih =>
    obtain ⟨k, u⟩ := e
    simp only [Memory.wfFrom, Bool.and_eq_true, decide_eq_true_eq] at w
    obtain ⟨⟨⟨h1, h2⟩, h3⟩, h4⟩ := w
    simp only [Memory.erase]
    split_ifs
    · exact ih (Memory.wfFrom_mono (by omega) h4)
    · simp only [Memory.wfFrom, Bool.and_eq_true, decide_eq_true_eq]
      exact ⟨⟨⟨h1, h2⟩, h3⟩, ih h4⟩

/-- Writing a byte keeps the canonical form. -/
theorem Memory.wf_write {m : List Host.Cell} {a : Nat} (v : Byte) (ha : a < 262144) (w : Memory.wf m = true) :
    Memory.wf (Memory.write m a v) = true := by
  unfold Memory.write Memory.wf
  split_ifs with h
  · exact Memory.wfFrom_erase w
  · exact Memory.wfFrom_insert (Nat.zero_le _) ha h w

/-! ## Bytes of the banks -/

theorem physical_lt (b : BankNo) (a : Half) : physical b a < 262144 := by
  have h1 := b.isLt; have h2 := a.isLt; unfold physical; omega

theorem physical_inj {b b' : BankNo} {a a' : Half} : physical b a = physical b' a' ↔ b = b' ∧ a = a' := by
  have h1 := b.isLt; have h2 := a.isLt; have h3 := b'.isLt; have h4 := a'.isLt
  unfold physical
  constructor
  · intro h; exact ⟨BitVec.eq_of_toNat_eq (by omega), BitVec.eq_of_toNat_eq (by omega)⟩
  · rintro ⟨rfl, rfl⟩; rfl

theorem State.byteAt_setByte (s : State) (b b' : BankNo) (a a' : Half) (v : Byte) :
    (s.setByte b a v).byteAt b' a' = if b' = b ∧ a' = a then v else s.byteAt b' a' := by
  simp only [State.byteAt, State.setByte, Memory.read_write, physical_inj]
  by_cases h : b = b' ∧ a = a'
  · obtain ⟨rfl, rfl⟩ := h; simp
  · rw [if_neg h, if_neg (fun ⟨h1, h2⟩ => h ⟨h1.symm, h2.symm⟩)]

@[simp] theorem State.byteAt_setByte_same (s : State) (b : BankNo) (a : Half) (v : Byte) :
    (s.setByte b a v).byteAt b a = v := by simp [State.byteAt_setByte]

theorem State.byteAt_setByte_other (s : State) {b b' : BankNo} {a a' : Half} (v : Byte) (h : ¬(b' = b ∧ a' = a)) :
    (s.setByte b a v).byteAt b' a' = s.byteAt b' a' := by rw [State.byteAt_setByte, if_neg h]

theorem half_bytes (v : Half) : v.extractLsb' 8 8 ++ v.extractLsb' 0 8 = v := by
  rw [BitVec.extractLsb'_append_extractLsb'_eq_extractLsb' (by omega)]; simp

theorem full_halves (v : Full) : v.extractLsb' 16 16 ++ v.extractLsb' 0 16 = v := by
  rw [BitVec.extractLsb'_append_extractLsb'_eq_extractLsb' (by omega)]; simp

theorem dbl_fulls (v : Dbl) : v.extractLsb' 32 32 ++ v.extractLsb' 0 32 = v := by
  rw [BitVec.extractLsb'_append_extractLsb'_eq_extractLsb' (by omega)]; simp

theorem half_ne_add_one (a : Half) : a ≠ a + 1 := by
  intro h; have := congrArg BitVec.toNat h; have h2 := a.isLt; simp at this; omega

/-- What a halfword write does to each byte. -/
theorem State.byteAt_setHalf (s : State) (b b' : BankNo) (a a' v : Half) :
    (s.setHalf b a v).byteAt b' a' =
      if b' = b ∧ a' = a + 1 then v.extractLsb' 0 8
      else if b' = b ∧ a' = a then v.extractLsb' 8 8 else s.byteAt b' a' := by
  simp only [State.setHalf, State.byteAt_setByte]

theorem State.byteAt_setHalf_outside (s : State) {b b' : BankNo} {a a' : Half} (v : Half)
    (h : ¬ InSpan b a 2 b' a') : (s.setHalf b a v).byteAt b' a' = s.byteAt b' a' := by
  rw [State.byteAt_setHalf, if_neg, if_neg]
  · rintro ⟨rfl, rfl⟩; exact h ⟨rfl, by simp⟩
  · rintro ⟨rfl, rfl⟩; exact h ⟨rfl, by simp⟩

@[simp] theorem State.halfAt_setHalf_same (s : State) (b : BankNo) (a v : Half) :
    (s.setHalf b a v).halfAt b a = v := by
  simp only [State.halfAt, State.byteAt_setHalf, and_self, if_true, true_and]
  rw [if_neg (half_ne_add_one a)]; exact half_bytes v

theorem State.byteAt_setFull_outside (s : State) {b b' : BankNo} {a a' : Half} (v : Full)
    (h : ¬ InSpan b a 4 b' a') : (s.setFull b a v).byteAt b' a' = s.byteAt b' a' := by
  unfold State.setFull
  rw [State.byteAt_setHalf_outside, State.byteAt_setHalf_outside]
  · rintro ⟨rfl, h2⟩; exact h ⟨rfl, by omega⟩
  · rintro ⟨rfl, h2⟩; exact h ⟨rfl, by bv_omega⟩

/-- A halfword read next to a write. -/
theorem State.halfAt_congr {s t : State} {b : BankNo} {a : Half} (h0 : t.byteAt b a = s.byteAt b a)
    (h1 : t.byteAt b (a + 1) = s.byteAt b (a + 1)) : t.halfAt b a = s.halfAt b a := by
  simp only [State.halfAt, h0, h1]

theorem State.halfAt_setHalf_other (s : State) {b b' : BankNo} {a a' : Half} (v : Half)
    (h : ¬(b' = b ∧ (a' = a ∨ a' = a + 1 ∨ a' + 1 = a))) : (s.setHalf b a v).halfAt b' a' = s.halfAt b' a' := by
  have key : a' + 1 = a + 1 → a' = a := fun e => by
    have := congrArg (· - (1 : Half)) e; simpa using this
  apply State.halfAt_congr <;> rw [State.byteAt_setHalf, if_neg, if_neg] <;> rintro ⟨rfl, h2⟩ <;>
    exact h ⟨rfl, by tauto⟩

@[simp] theorem State.fullAt_setFull_same (s : State) (b : BankNo) (a : Half) (v : Full) :
    (s.setFull b a v).fullAt b a = v := by
  unfold State.fullAt State.setFull
  rw [State.halfAt_setHalf_same, State.halfAt_setHalf_other, State.halfAt_setHalf_same, full_halves]
  rintro ⟨-, h⟩
  rcases h with h | h | h <;> bv_omega

/-! ## Registers -/

theorem State.reg_setReg (s : State) (r q : RegNo) (v : Half) :
    (s.setReg r v).reg q = if q = r then v else s.reg q := by
  simp only [State.reg, State.setReg, Vector.getElem_set]
  by_cases h : r = q
  · subst h; simp
  · have : r.toNat ≠ q.toNat := fun e => h (BitVec.eq_of_toNat_eq e)
    rw [if_neg this, if_neg (fun e => h e.symm)]

@[simp] theorem State.reg_setReg_same (s : State) (r : RegNo) (v : Half) : (s.setReg r v).reg r = v := by
  simp [State.reg_setReg]

theorem State.reg_setReg_other (s : State) {r q : RegNo} (v : Half) (h : q ≠ r) :
    (s.setReg r v).reg q = s.reg q := by rw [State.reg_setReg, if_neg h]

/-- What a pair write does to each register. -/
theorem State.reg_setPair (s : State) (r q : RegNo) (v : Full) :
    (s.setPair r v).reg q =
      if q = r + 1 then v.extractLsb' 0 16 else if q = r then v.extractLsb' 16 16 else s.reg q := by
  simp only [State.setPair, State.reg_setReg]

theorem regNo_facts : ∀ r : RegNo, r ≠ r + 1 ∧ r ≠ r + 2 ∧ r ≠ r + 3 ∧ r + 1 ≠ r ∧ r + 2 ≠ r ∧ r + 3 ≠ r ∧
    r + 1 ≠ r + 2 ∧ r + 1 ≠ r + 3 ∧ r + 2 ≠ r + 3 ∧ r + 2 ≠ r + 1 ∧ r + 3 ≠ r + 1 ∧ r + 3 ≠ r + 2 ∧
    r + 1 + 1 = r + 2 ∧ r + 2 + 1 = r + 3 := by decide

@[simp] theorem State.pair_setPair_same (s : State) (r : RegNo) (v : Full) : (s.setPair r v).pair r = v := by
  obtain ⟨h, -⟩ := regNo_facts r
  simp only [State.pair, State.reg_setPair, if_true]
  rw [if_neg h, full_halves]

theorem dbl_high_low (v : Dbl) : (v.extractLsb' 32 32).extractLsb' 0 16 = v.extractLsb' 32 16 := by
  ext i hi; simp; omega

theorem dbl_high_high (v : Dbl) : (v.extractLsb' 32 32).extractLsb' 16 16 = v.extractLsb' 48 16 := by
  ext i hi; simp [← Nat.add_assoc]; omega

theorem dbl_low_low (v : Dbl) : (v.extractLsb' 0 32).extractLsb' 0 16 = v.extractLsb' 0 16 := by
  ext i hi; simp

theorem dbl_low_high (v : Dbl) : (v.extractLsb' 0 32).extractLsb' 16 16 = v.extractLsb' 16 16 := by
  ext i hi; simp

/-- What a quadruple write does to each register. -/
theorem State.reg_setQuad (s : State) (r q : RegNo) (v : Dbl) :
    (s.setQuad r v).reg q =
      if q = r + 3 then v.extractLsb' 0 16
      else if q = r + 2 then v.extractLsb' 16 16
      else if q = r + 1 then v.extractLsb' 32 16
      else if q = r then v.extractLsb' 48 16 else s.reg q := by
  have h := (regNo_facts r).2.2.2.2.2.2.2.2.2.2.2.2.2
  simp only [State.setQuad, State.reg_setPair, h, dbl_high_low, dbl_high_high, dbl_low_low, dbl_low_high]

theorem State.pair_setPair_next (s : State) (r : RegNo) (v w : Full) :
    ((s.setPair r v).setPair (r + 2) w).pair r = v := by
  obtain ⟨h1, h2, h3, -, -, -, h7, h8, -, -, -, -, -, h14⟩ := regNo_facts r
  simp only [State.pair, State.reg_setPair, h14, if_neg h1, if_neg h2, if_neg h3, if_neg h7, if_neg h8, if_true]
  exact full_halves v

@[simp] theorem State.quad_setQuad_same (s : State) (r : RegNo) (v : Dbl) : (s.setQuad r v).quad r = v := by
  simp only [State.quad, State.setQuad, State.pair_setPair_same, State.pair_setPair_next]
  exact dbl_fulls v

/-! ## The canonical form is kept -/

theorem State.wf_setByte {s : State} (h : Memory.wf s.mem = true) (b : BankNo) (a : Half) (v : Byte) :
    Memory.wf (s.setByte b a v).mem = true := Memory.wf_write v (physical_lt b a) h

theorem State.wf_storeByte {s : State} (h : Memory.wf s.mem = true) (b : BankNo) (a : Half) (v : Byte) :
    Memory.wf (s.storeByte b a v).mem = true := by
  unfold State.storeByte
  split
  · exact State.wf_setByte h b a v
  · exact h

theorem State.wf_storeHalf {s : State} (h : Memory.wf s.mem = true) (b : BankNo) (a v : Half) :
    Memory.wf (s.storeHalf b a v).mem = true := State.wf_storeByte (State.wf_storeByte h b a _) b (a + 1) _

theorem Memory.wf_agentWrites (i : Config.Installation) {m : List Host.Cell} (h : Memory.wf m = true)
    (ws : List AgentWrite) : Memory.wf (agentWrites i m ws) = true := by
  induction ws generalizing m with
  | nil => exact h
  | cons w rest ih =>
    simp only [agentWrites, List.foldl_cons]
    apply ih
    split
    · exact Memory.wf_write w.value w.address.isLt h
    · exact h

theorem State.wf_transfer {s : State} (h : Memory.wf s.mem = true) : Memory.wf s.transfer.mem = true := by
  unfold State.transfer
  split
  · exact h
  · exact Memory.wf_agentWrites _ h _

/-! ## The operations that transfer keep the form -/

/-- Whatever state an outcome goes on to has memory in the canonical form. -/
def KeepsForm (o : Outcome) : Prop := ∀ t, o = .next t → Memory.wf t.mem = true

theorem KeepsForm.next {s : State} (h : Memory.wf s.mem = true) : KeepsForm (.next s) := by
  rintro t ⟨⟩; exact h

theorem KeepsForm.fault (f : Fault) : KeepsForm (.fault f) := fun _ h => by cases h

theorem KeepsForm.refused (r : Refusal) : KeepsForm (.refused r) := fun _ h => by cases h

theorem KeepsForm.require {ok : Bool} {why : Refusal} {k : Outcome} (h : KeepsForm k) : KeepsForm (require ok why k) := by
  unfold Machine.require
  split
  · exact h
  · exact KeepsForm.refused _

theorem KeepsForm.requireEven {a : Half} {k : Outcome} (h : KeepsForm k) : KeepsForm (requireEven a k) := by
  unfold Machine.requireEven
  split
  · exact KeepsForm.fault _
  · exact h

theorem KeepsForm.ite {c : Prop} [Decidable c] {x y : Outcome} (hx : KeepsForm x) (hy : KeepsForm y) :
    KeepsForm (if c then x else y) := by
  split
  · exact hx
  · exact hy

theorem KeepsForm.readByte {s : State} (h : Memory.wf s.mem = true) {b : BankNo} {a : Half}
    {k : Byte → State → Outcome} (hk : ∀ v t, Memory.wf t.mem = true → KeepsForm (k v t)) : KeepsForm (s.readByte b a k) :=
  (hk _ _ (State.wf_transfer h)).require

theorem KeepsForm.readHalf {s : State} (h : Memory.wf s.mem = true) {b : BankNo} {a : Half}
    {k : Half → State → Outcome} (hk : ∀ v t, Memory.wf t.mem = true → KeepsForm (k v t)) : KeepsForm (s.readHalf b a k) :=
  (hk _ _ (State.wf_transfer h)).require

theorem KeepsForm.readFull {s : State} (h : Memory.wf s.mem = true) {b : BankNo} {a : Half}
    {k : Full → State → Outcome} (hk : ∀ v t, Memory.wf t.mem = true → KeepsForm (k v t)) : KeepsForm (s.readFull b a k) :=
  KeepsForm.readHalf h fun _ _ ht => KeepsForm.readHalf ht fun _ _ hu => hk _ _ hu

theorem KeepsForm.writeByte {s : State} (h : Memory.wf s.mem = true) {b : BankNo} {a : Half} {v : Byte}
    {k : State → Outcome} (hk : ∀ t, Memory.wf t.mem = true → KeepsForm (k t)) : KeepsForm (s.writeByte b a v k) :=
  (hk _ (State.wf_storeByte (State.wf_transfer h) _ _ _)).require

theorem KeepsForm.writeHalf {s : State} (h : Memory.wf s.mem = true) {b : BankNo} {a v : Half}
    {k : State → Outcome} (hk : ∀ t, Memory.wf t.mem = true → KeepsForm (k t)) : KeepsForm (s.writeHalf b a v k) :=
  (hk _ (State.wf_storeHalf (State.wf_transfer h) _ _ _)).require

theorem KeepsForm.writeFull {s : State} (h : Memory.wf s.mem = true) {b : BankNo} {a : Half} {v : Full}
    {k : State → Outcome} (hk : ∀ t, Memory.wf t.mem = true → KeepsForm (k t)) : KeepsForm (s.writeFull b a v k) :=
  KeepsForm.writeHalf h fun _ ht => KeepsForm.writeHalf ht hk

theorem KeepsForm.loadMultiple {s : State} (h : Memory.wf s.mem = true) (b : BankNo) (n : Nat) (r : RegNo) (a : Half)
    {k : State → Outcome} (hk : ∀ t, Memory.wf t.mem = true → KeepsForm (k t)) :
    KeepsForm (State.loadMultiple b n r a k s) := by
  induction n generalizing s r a with
  | zero => exact hk s h
  | succ n ih => exact KeepsForm.readHalf h fun v t ht => ih (s := t.setReg r v) ht _ _

theorem KeepsForm.storeMultiple {s : State} (h : Memory.wf s.mem = true) (b : BankNo) (n : Nat) (r : RegNo) (a : Half)
    {k : State → Outcome} (hk : ∀ t, Memory.wf t.mem = true → KeepsForm (k t)) :
    KeepsForm (State.storeMultiple b n r a k s) := by
  induction n generalizing s r a with
  | zero => exact hk s h
  | succ n ih => exact KeepsForm.writeHalf h fun _ ht => ih ht _ _

theorem KeepsForm.exchange {s : State} (h : Memory.wf s.mem = true) {i : Interrupt} {a : Half} {k : State → Outcome}
    (hk : ∀ t, Memory.wf t.mem = true → KeepsForm (k t)) : KeepsForm (s.exchange i a k) :=
  KeepsForm.writeFull h fun _ ht => KeepsForm.readFull ht fun _ _ hu => hk _ hu

theorem KeepsForm.raise {s : State} (h : Memory.wf s.mem = true) {i : Interrupt} {a : Half} : KeepsForm (s.raise i a) :=
  KeepsForm.exchange h fun _ => KeepsForm.next

theorem KeepsForm.readBlock {s : State} (h : Memory.wf s.mem = true) (b : BankNo) (d : Byte) (len : Half) (n : Nat)
    (a : Half) : KeepsForm (State.readBlock b d len n a s) := by
  induction n generalizing s a with
  | zero => exact KeepsForm.next h
  | succ n ih =>
    exact KeepsForm.ite (KeepsForm.next h) (KeepsForm.writeByte (s := (s.afterStatus d).afterRead d) h fun _ ht => ih ht _)

theorem KeepsForm.writeBlock {s : State} (h : Memory.wf s.mem = true) (b : BankNo) (d : Byte) (len : Half) (n : Nat)
    (a : Half) : KeepsForm (State.writeBlock b d len n a s) := by
  induction n generalizing s a with
  | zero => exact KeepsForm.next h
  | succ n ih =>
    refine KeepsForm.ite (KeepsForm.next h) (KeepsForm.readByte (s := s.afterStatus d) h fun v t ht => ?_)
    exact ih (s := t.called (.write d v)) ht _

theorem KeepsForm.autoload {s : State} (h : Memory.wf s.mem = true) (d : Byte) (last : Half) (n : Nat) (leader : Bool)
    (a : Half) : KeepsForm (State.autoload d last n leader a s) := by
  induction n generalizing s leader a with
  | zero => exact KeepsForm.next h
  | succ n ih =>
    refine KeepsForm.ite (KeepsForm.next h) (KeepsForm.ite (ih (s := (s.afterStatus d).afterRead d) h _ _) ?_)
    exact KeepsForm.writeByte (s := (s.afterStatus d).afterRead d) h fun t ht => KeepsForm.ite (KeepsForm.next ht) (ih ht _ _)

/-- The memory right after reset has the canonical form. -/
theorem State.wf_reset_mem : Memory.wf State.reset.mem = true := rfl

end Sys2Proof.Machine
end

