-- ==== Sys2Proof/Laws/Undisturbed.lean ====
section
/-! SUPPORT. Where no other agent writes and all of memory is fitted, a transfer reads or writes memory and nothing else:
each operation that transfers comes to an update of `Sys2Proof.Laws.Pure`. -/

namespace Sys2Proof.Machine

theorem isPresent_of_isWritable {i : Config.Installation} {p : Nat} (h : isWritable i p = true) : isPresent i p = true := by
  simp only [isWritable, Bool.and_eq_true] at h
  exact h.1

/-- The installation of the spec's default proofs (20_memory.md rule R62). -/
theorem standard_fitted (p : Nat) (h : p < 262144) : isWritable Config.Installation.standard p = true := by
  simp [isWritable, covers, Config.Installation.standard, h]

/-! ## Where another agent writes -/

/-- What other agents leave in a byte, all of memory fitted. -/
theorem agentWrites_byte {i : Config.Installation} (h : ∀ p < 262144, isWritable i p = true) (m : List Host.Cell)
    (ws : List AgentWrite) (p : Nat) : Memory.read (agentWrites i m ws) p = agentByte ws p (Memory.read m p) := by
  induction ws using List.reverseRecOn with
  | nil => rfl
  | append_singleton ws w ih =>
    simp only [agentWrites, List.foldl_append, List.foldl_cons, List.foldl_nil]
    rw [if_pos (h _ w.address.isLt), Memory.read_write]
    simp only [agentByte, List.reverse_append, List.reverse_singleton, List.singleton_append, List.find?_cons]
    by_cases e : w.address.toNat = p
    · simp [e]
    · simp only [e, decide_false, if_false]
      exact ih

/-- Writes after writes. -/
theorem agentByte_append (w1 w2 : List AgentWrite) (p : Nat) (old : Byte) :
    agentByte (w1 ++ w2) p old = agentByte w2 p (agentByte w1 p old) := by
  simp only [agentByte, List.reverse_append, List.find?_append]
  cases w2.reverse.find? _ <;> simp

@[simp] theorem State.transfer_x (s : State) : s.transfer.x = s.x := by unfold State.transfer; split <;> rfl
@[simp] theorem State.transfer_reg (s : State) (r : RegNo) : s.transfer.reg r = s.reg r := by simp [State.reg]
@[simp] theorem State.transfer_psw (s : State) : s.transfer.psw = s.psw := by unfold State.transfer; split <;> rfl
@[simp] theorem State.transfer_install (s : State) : s.transfer.install = s.install := by
  unfold State.transfer; split <;> rfl
@[simp] theorem State.transfer_setReg (s : State) (r : RegNo) (v : Half) :
    (s.setReg r v).transfer = s.transfer.setReg r v := by
  unfold State.transfer; rw [State.setReg_env]; split <;> rfl

/-- A transfer before which `ws` is written, whole. -/
theorem State.transfer_spec {s : State} (h : ∀ p < 262144, isWritable s.install p = true) {ws : List AgentWrite}
    {rest : List (List AgentWrite)} (ht : s.env.transfers = ws :: rest) :
    (∀ b a, s.transfer.byteAt b a = s.byteAfter ws b a) ∧ s.transfer.env = { s.env with transfers := rest } := by
  simp only [State.transfer, ht]
  exact ⟨fun b a => agentWrites_byte h _ _ _, trivial⟩

namespace Undisturbed

variable {s : State}

theorem writable (h : Undisturbed s) (b : BankNo) (a : Half) : isWritable s.install (physical b a) = true :=
  h.fitted _ (physical_lt b a)

theorem hasByte (h : Undisturbed s) (b : BankNo) (a : Half) : s.hasByte b a = true :=
  isPresent_of_isWritable (h.writable b a)

theorem hasHalf (h : Undisturbed s) (b : BankNo) (a : Half) : s.hasHalf b a = true := by
  simp only [State.hasHalf, h.hasByte, Bool.and_self]

theorem transfer (h : Undisturbed s) : s.transfer = s := by simp only [State.transfer, h.alone]

theorem storeByte (h : Undisturbed s) (b : BankNo) (a : Half) (v : Byte) : s.storeByte b a v = s.setByte b a v := by
  simp only [State.storeByte, h.writable, if_true]

theorem storeHalf (h : Undisturbed s) (b : BankNo) (a v : Half) : s.storeHalf b a v = s.setHalf b a v := by
  have k : Undisturbed (s.setByte b a (v.extractLsb' 8 8)) := (State.setByte_undisturbed s b a _).2 h
  simp only [State.storeHalf, State.setHalf, h.storeByte, k.storeByte]

theorem readByte (h : Undisturbed s) (b : BankNo) (a : Half) (k : Byte → State → Outcome) :
    s.readByte b a k = k (s.byteAt b a) s := by
  simp only [State.readByte, h.hasByte, h.transfer]; rfl

theorem readHalf (h : Undisturbed s) (b : BankNo) (a : Half) (k : Half → State → Outcome) :
    s.readHalf b a k = k (s.halfAt b a) s := by
  simp only [State.readHalf, h.hasHalf, h.transfer]; rfl

theorem readFull (h : Undisturbed s) (b : BankNo) (a : Half) (k : Full → State → Outcome) :
    s.readFull b a k = k (s.fullAt b a) s := by
  simp only [State.readFull, h.readHalf]; rfl

theorem writeByte (h : Undisturbed s) (b : BankNo) (a : Half) (v : Byte) (k : State → Outcome) :
    s.writeByte b a v k = k (s.setByte b a v) := by
  simp only [State.writeByte, h.hasByte, h.transfer, h.storeByte]; rfl

theorem writeHalf (h : Undisturbed s) (b : BankNo) (a v : Half) (k : State → Outcome) :
    s.writeHalf b a v k = k (s.setHalf b a v) := by
  simp only [State.writeHalf, h.hasHalf, h.transfer, h.storeHalf]; rfl

theorem writeFull (h : Undisturbed s) (b : BankNo) (a : Half) (v : Full) (k : State → Outcome) :
    s.writeFull b a v k = k (s.setFull b a v) := by
  simp only [State.writeFull, h.writeHalf]
  rw [((State.setHalf_undisturbed s b a _).2 h).writeHalf]; rfl

theorem readFloat (h : Undisturbed s) (r : RegNo) (k : Full → State → Outcome) : s.readFloat r k = k (s.floatReg r) s :=
  h.readFull _ _ _

theorem writeFloat (h : Undisturbed s) (r : RegNo) (v : Full) (k : State → Outcome) :
    s.writeFloat r v k = k (s.setFloatReg r v) := h.writeFull _ _ _ _

/-! ## Operands -/

theorem halfOperand (h : Undisturbed s) (x2 : RegNo) (a2 : Half) (k : Half → State → Outcome) :
    s.halfOperand x2 a2 k = requireEven (s.ea x2 a2) (k (s.halfAt s.psw.OB (s.ea x2 a2)) s) := by
  simp only [State.halfOperand, State.withHalf, h.readHalf]

theorem fullOperand (h : Undisturbed s) (x2 : RegNo) (a2 : Half) (k : Full → State → Outcome) :
    s.fullOperand x2 a2 k = requireEven (s.ea x2 a2) (k (s.fullAt s.psw.OB (s.ea x2 a2)) s) := by
  simp only [State.fullOperand, State.withFull, h.readFull]

theorem byteOperand (h : Undisturbed s) (x2 : RegNo) (a2 : Half) (k : Byte → State → Outcome) :
    s.byteOperand x2 a2 k = k (s.byteAt s.psw.OB (s.ea x2 a2)) s := h.readByte _ _ _

theorem withScalars (h : Undisturbed s) (x2 : RegNo) (a2 : Half) (k : Full → Full → State → Outcome) :
    s.withScalars x2 a2 k = requireEven (s.ea x2 a2)
      (k (s.fullAt s.psw.OB (s.ea x2 a2)) (s.fullAt s.psw.OB (s.ea x2 a2 + 4)) s) := by
  simp only [State.withScalars, h.readFull]

theorem withLimits (h : Undisturbed s) (r1 x2 : RegNo) (a2 : Half) (k : Byte → Half → Half → State → Outcome) :
    s.withLimits r1 x2 a2 k = requireEven (s.ea x2 a2) (s.withDevice r1 fun d =>
      k d (s.halfAt s.psw.OB (s.ea x2 a2)) (s.halfAt s.psw.OB (s.ea x2 a2 + 2)) s) := by
  simp only [State.withLimits, h.readHalf]

theorem floatRegisters (h : Undisturbed s) (r1 r2 : RegNo) (k : Full → Full → State → Outcome) :
    s.floatRegisters r1 r2 k = requireEvenPair r1 r2 (k (s.floatReg r1) (s.floatReg r2) s) := by
  simp only [State.floatRegisters, h.readFloat]

theorem floatOperands (h : Undisturbed s) (r1 x2 : RegNo) (a2 : Half) (k : Full → Full → State → Outcome) :
    s.floatOperands r1 x2 a2 k = requireR1Even r1 (requireEven (s.ea x2 a2)
      (k (s.floatReg r1) (s.fullAt s.psw.OB (s.ea x2 a2)) s)) := by
  simp only [State.floatOperands, h.readFloat, h.readFull]

theorem loadMultiple {s : State} (h : Undisturbed s) (b : BankNo) (n : Nat) (r : RegNo) (a : Half) (k : State → Outcome) :
    State.loadMultiple b n r a k s = k (s.loadedMultiple b n r a) := by
  induction n generalizing s r a with
  | zero => rfl
  | succ n ih =>
    rw [State.loadMultiple, h.readHalf, State.loadedMultiple]
    exact ih ((State.setReg_undisturbed s r _).2 h) _ _

theorem storeMultiple {s : State} (h : Undisturbed s) (b : BankNo) (n : Nat) (r : RegNo) (a : Half)
    (k : State → Outcome) : State.storeMultiple b n r a k s = k (s.storedMultiple b n r a) := by
  induction n generalizing s r a with
  | zero => rfl
  | succ n ih =>
    rw [State.storeMultiple, h.writeHalf, State.storedMultiple]
    exact ih ((State.setHalf_undisturbed s b a _).2 h) _ _

theorem writeFloatResult (h : Undisturbed s) (r1 : RegNo) (r : FloatResult) (k : State → Outcome) :
    s.writeFloatResult r1 r k = k (s.setFloatResult r1 r) := by
  cases hr : r.register <;> simp only [State.writeFloatResult, State.setFloatResult, hr]
  exact h.writeFloat _ _ _

/-! ## Exchanges -/

theorem loadPsw (h : Undisturbed s) (b : BankNo) (a : Half) (k : State → Outcome) :
    s.loadPsw b a k = k (s.loadedPsw b a) := by
  rw [State.loadPsw, h.readFull, State.loadedPsw]

theorem exchange (h : Undisturbed s) (i : Interrupt) (a : Half) (k : State → Outcome) :
    s.exchange i a k = k (s.exchanged i a) := by
  rw [State.exchange, h.writeFull, ((State.setFull_undisturbed s 0 i.oldPsw _).2 h).loadPsw, State.exchanged]

theorem raise (h : Undisturbed s) (i : Interrupt) (a : Half) : s.raise i a = .next (s.exchanged i a) :=
  h.exchange i a _

theorem privileged (h : Undisturbed s) (k : Outcome) :
    s.privileged k = if s.psw.control.PM then .next (s.exchanged .protectMode s.psw.LOC) else k := by
  rw [State.privileged, h.raise]

/-! ## The loops of the block instructions -/

theorem readBlock {s : State} (h : Undisturbed s) (b : BankNo) (d : Byte) (len : Half) (n : Nat) (a : Half) :
    State.readBlock b d len n a s = .next ((State.blockRead b d n a s).advance len) := by
  induction n generalizing s a with
  | zero => rfl
  | succ n ih =>
    have k : Undisturbed ((s.afterStatus d).afterRead d) := by simpa using h
    simp only [State.readBlock, State.blockRead, k.writeByte]
    split_ifs with c
    · rfl
    · exact ih (by simpa using h) _

theorem writeBlock {s : State} (h : Undisturbed s) (b : BankNo) (d : Byte) (len : Half) (n : Nat) (a : Half) :
    State.writeBlock b d len n a s = .next ((State.blockWritten b d n a s).advance len) := by
  induction n generalizing s a with
  | zero => rfl
  | succ n ih =>
    have k : Undisturbed (s.afterStatus d) := by simpa using h
    simp only [State.writeBlock, State.blockWritten, k.readByte]
    split_ifs with c
    · rfl
    · exact ih (by simpa using h) _

theorem autoload {s : State} (h : Undisturbed s) (d : Byte) (last : Half) (n : Nat) (leader : Bool) (a : Half) :
    State.autoload d last n leader a s = .next ((State.autoloaded d last n leader a s).advance 4) := by
  induction n generalizing s leader a with
  | zero => rfl
  | succ n ih =>
    have k : Undisturbed ((s.afterStatus d).afterRead d) := by simpa using h
    simp only [State.autoload, State.autoloaded, k.writeByte]
    split_ifs with c1 c2 c3
    · rfl
    · exact ih k _ _
    · rfl
    · exact ih (by simpa using h) _ _

end Undisturbed

end Sys2Proof.Machine
end

