-- ==== Sys2Proof/Laws/Ops.lean ====
section
/-! SUPPORT. One lemma for each shared operation that says what it can answer, and the frames the operations keep. -/

namespace Sys2Proof.Machine

/-! ## Checks -/

theorem require_next {ok : Bool} {why : Refusal} {k : Outcome} {t : State} :
    require ok why k = .next t ↔ ok = true ∧ k = .next t := by
  cases ok <;> simp [require]

theorem requireEven_next {a : Half} {k : Outcome} {t : State} :
    requireEven a k = .next t ↔ EvenAddress a ∧ k = .next t := by
  unfold requireEven EvenAddress
  cases a.getLsbD 0 <;> simp

theorem State.privileged_next {s : State} {k : Outcome} {t : State} :
    s.privileged k = .next t ↔
      (s.psw.control.PM = true ∧ s.raise .protectMode s.psw.LOC = .next t) ∨ (s.psw.control.PM = false ∧ k = .next t) := by
  unfold State.privileged
  cases s.psw.control.PM <;> simp

@[simp] theorem require_true (why : Refusal) (k : Outcome) : require true why k = k := rfl

@[simp] theorem require_false (why : Refusal) (k : Outcome) : require false why k = .refused why := rfl

theorem require_holds {p : Prop} [Decidable p] (h : p) (why : Refusal) (k : Outcome) : require (decide p) why k = k := by
  simp [h]

theorem require_fails {p : Prop} [Decidable p] (h : ¬p) (why : Refusal) (k : Outcome) :
    require (decide p) why k = .refused why := by simp [h]

theorem requireEven_even {a : Half} (h : EvenAddress a) (k : Outcome) : requireEven a k = k := by
  unfold EvenAddress at h; simp only [requireEven, h, Bool.false_eq_true, if_false]

theorem requireEven_odd {a : Half} (h : a.getLsbD 0 = true) (k : Outcome) :
    requireEven a k = .fault .oddOperandAddress := by
  simp only [requireEven, h, if_true]

theorem State.privileged_supervisor {s : State} (h : s.psw.control.PM = false) (k : Outcome) :
    s.privileged k = k := by simp [State.privileged, h]

theorem State.privileged_protect {s : State} (h : s.psw.control.PM = true) (k : Outcome) :
    s.privileged k = s.raise .protectMode s.psw.LOC := by simp [State.privileged, h]

theorem isEven_even {r : RegNo} (h : EvenReg r) : isEven r = true := by
  unfold EvenReg at h; simp only [isEven, h, Bool.not_false]

theorem requireR1Even_even {r1 : RegNo} (h : EvenReg r1) (k : Outcome) : requireR1Even r1 k = k := by
  simp [requireR1Even, isEven_even h]

theorem requireEvenPair_even {r1 r2 : RegNo} (h1 : EvenReg r1) (h2 : EvenReg r2) (k : Outcome) :
    requireEvenPair r1 r2 k = k := by
  simp [requireEvenPair, requireR1Even, isEven_even h1, isEven_even h2]

theorem requireQuad_quad {r1 : RegNo} (h : QuadReg r1) (k : Outcome) : requireQuad r1 k = k := by
  have : r1.ule 12 = true := by simpa [BitVec.ule] using h.2
  simp only [requireQuad, isEven_even h.1, this, Bool.and_self, require_true]

/-! ## Frames -/

theorem RegisterFrame.refl (rs : List RegNo) (s : State) : RegisterFrame rs s s :=
  ⟨fun _ _ => rfl, fun _ _ => rfl, ⟨rfl, rfl, rfl⟩, ⟨rfl, rfl, rfl, rfl, rfl⟩⟩

theorem RegisterFrame.setReg (r : RegNo) (v : Half) {rs : List RegNo} (h : r ∈ rs) (s : State) :
    RegisterFrame rs s (s.setReg r v) :=
  ⟨fun _ hq => State.reg_setReg_other s v (fun e => hq (e ▸ h)), fun _ _ => rfl, ⟨rfl, rfl, rfl⟩,
    ⟨rfl, rfl, rfl, rfl, rfl⟩⟩

theorem RegisterFrame.trans {rs : List RegNo} {s t u : State} (h : RegisterFrame rs s t) (k : RegisterFrame rs t u) :
    RegisterFrame rs s u :=
  ⟨fun r hr => (k.regs r hr).trans (h.regs r hr), fun b a => (k.memory b a).trans (h.memory b a),
    ⟨k.modes.1.trans h.modes.1, k.modes.2.1.trans h.modes.2.1, k.modes.2.2.trans h.modes.2.2⟩,
    ⟨k.units.1.trans h.units.1, k.units.2.1.trans h.units.2.1, k.units.2.2.1.trans h.units.2.2.1,
      k.units.2.2.2.1.trans h.units.2.2.2.1, k.units.2.2.2.2.trans h.units.2.2.2.2⟩⟩

theorem RegisterFrame.setPair (r : RegNo) (v : Full) {rs : List RegNo} (h : r ∈ rs) (h' : r + 1 ∈ rs) (s : State) :
    RegisterFrame rs s (s.setPair r v) :=
  (RegisterFrame.setReg r _ h s).trans (RegisterFrame.setReg (r + 1) _ h' _)

theorem RegisterFrame.setQuad (r : RegNo) (v : Dbl) {rs : List RegNo} (h : r ∈ rs) (h1 : r + 1 ∈ rs)
    (h2 : r + 2 ∈ rs) (h3 : r + 3 ∈ rs) (s : State) : RegisterFrame rs s (s.setQuad r v) :=
  (RegisterFrame.setPair r _ h h1 s).trans
    (RegisterFrame.setPair (r + 2) _ h2 ((regNo_facts r).2.2.2.2.2.2.2.2.2.2.2.2.2 ▸ h3) _)

/-- Flags, the location counter and the draws are outside the frame. -/
theorem RegisterFrame.mono {rs rs' : List RegNo} (h : ∀ r ∈ rs, r ∈ rs') {s t : State} (f : RegisterFrame rs s t) :
    RegisterFrame rs' s t := ⟨fun r hr => f.regs r (fun m => hr (h r m)), f.memory, f.modes, f.units⟩

/-- A state that differs from `u` in flags, location counter and draws alone is framed as `u` is. -/
theorem RegisterFrame.flags {rs : List RegNo} {s u t : State} (f : RegisterFrame rs s u) (hx : t.x = u.x)
    (hm : t.mem = u.mem) (hc : t.psw.control = u.psw.control) (hi : t.psw.IB = u.psw.IB) (ho : t.psw.OB = u.psw.OB)
    (hu : SameUnits u t) : RegisterFrame rs s t :=
  f.trans ⟨fun r _ => by simp [State.reg, hx], fun b a => by simp [State.byteAt, hm], ⟨hc, hi, ho⟩, hu⟩

theorem StoreFrame.setByte (s : State) (b : BankNo) (a : Half) (v : Byte) : StoreFrame b a 1 s (s.setByte b a v) :=
  ⟨fun _ _ => rfl, fun b' a' h => State.byteAt_setByte_other s v (by
    rintro ⟨rfl, rfl⟩; exact h ⟨rfl, by simp⟩), ⟨rfl, rfl, rfl⟩, ⟨rfl, rfl, rfl, rfl, rfl⟩⟩

theorem StoreFrame.setHalf (s : State) (b : BankNo) (a v : Half) : StoreFrame b a 2 s (s.setHalf b a v) :=
  ⟨fun _ _ => rfl, fun _ _ h => State.byteAt_setHalf_outside s v h, ⟨rfl, rfl, rfl⟩, ⟨rfl, rfl, rfl, rfl, rfl⟩⟩

theorem StoreFrame.setFull (s : State) (b : BankNo) (a : Half) (v : Full) : StoreFrame b a 4 s (s.setFull b a v) :=
  ⟨fun _ _ => rfl, fun _ _ h => State.byteAt_setFull_outside s v h, ⟨rfl, rfl, rfl⟩, ⟨rfl, rfl, rfl, rfl, rfl⟩⟩

/-- A state that differs from `u` in flags, location counter and draws alone is framed as `u` is. -/
theorem StoreFrame.flags {b : BankNo} {a : Half} {n : Nat} {s u t : State} (f : StoreFrame b a n s u) (hx : t.x = u.x)
    (hm : t.mem = u.mem) (hc : t.psw.control = u.psw.control) (hi : t.psw.IB = u.psw.IB) (ho : t.psw.OB = u.psw.OB)
    (hu : SameUnits u t) : StoreFrame b a n s t :=
  ⟨fun r hr => by rw [← f.regs r hr]; simp [State.reg, hx],
    fun b' a' h => by rw [← f.memory b' a' h]; simp [State.byteAt, hm],
    ⟨hc.trans f.modes.1, hi.trans f.modes.2.1, ho.trans f.modes.2.2⟩,
    ⟨hu.1.trans f.units.1, hu.2.1.trans f.units.2.1, hu.2.2.1.trans f.units.2.2.1,
      hu.2.2.2.1.trans f.units.2.2.2.1, hu.2.2.2.2.trans f.units.2.2.2.2⟩⟩

/-! ## Flags -/

theorem showsSign_of {n : Nat} {c : CC} {v : BitVec n} (hg : c.G = isPositive v) (hl : c.L = isNegative v) :
    ShowsSign c v := by
  constructor
  · rw [hg]; simp [isPositive]
  · rw [hl]; simp [isNegative]

theorem addN_value {n : Nat} (a b : BitVec n) (c : Bool) : (addN a b c).value = a + b + BitVec.ofNat n c.toNat := by
  apply BitVec.eq_of_toNat_eq; simp [addN, BitVec.toNat_add]

theorem ofInt_difference {n : Nat} (x y : Int) : BitVec.ofInt n (x - y) = BitVec.ofInt n x - BitVec.ofInt n y := by
  apply BitVec.eq_of_toInt_eq
  simp only [BitVec.toInt_ofInt, BitVec.toInt_sub, Int.bmod_sub_bmod, Int.sub_bmod_bmod]

theorem subN_value {n : Nat} (a b : BitVec n) (c : Bool) : (subN a b c).value = a - b - BitVec.ofNat n c.toNat := by
  simp only [subN, ofInt_difference]; simp [BitVec.ofInt_natCast]

theorem showsSum_addN {n : Nat} (a b : BitVec n) (c : Bool) : ShowsSum (addN a b c).cc a b c := by
  refine ⟨?_, ?_, ?_⟩
  · simp [SumResult.cc, addN]
  · simp [SumResult.cc, addN, outsideSigned]
  · exact addN_value a b c ▸ showsSign_of rfl rfl

theorem showsDifference_subN {n : Nat} (a b : BitVec n) (c : Bool) : ShowsDifference (subN a b c).cc a b c := by
  refine ⟨?_, ?_, ?_⟩
  · simp [SumResult.cc, subN]
  · simp [SumResult.cc, subN, outsideSigned]
  · exact subN_value a b c ▸ showsSign_of rfl rfl

end Sys2Proof.Machine
end

