-- ==== Sys2Proof/Laws/Exchange.lean ====
section
/-! SUPPORT. The laws of the PSW as a word, and what a PSW exchange, a PSW load and a Service Pointer block do, said
once. -/

namespace Sys2Proof.Machine

/-! ## The PSW as a word -/

theorem Control.bits_ofBits (b : Byte) : (Control.ofBits b).bits = b := by
  revert b; decide

theorem CC.bits_ofBits (b : BitVec 4) : (CC.ofBits b).bits = b := by
  revert b; decide

theorem Control.ofBits_bits (c : Control) : Control.ofBits c.bits = c := by
  obtain ⟨a, b, c, d, e, f, g, h⟩ := c
  cases a <;> cases b <;> cases c <;> cases d <;> cases e <;> cases f <;> cases g <;> cases h <;> rfl

theorem CC.ofBits_bits (c : CC) : CC.ofBits c.bits = c := by
  obtain ⟨a, b, c, d⟩ := c
  cases a <;> cases b <;> cases c <;> cases d <;> rfl

/-- Joining the fields of a halfword gives the halfword. -/
theorem status_fields (h : Half) : h.extractLsb' 8 8 ++ h.extractLsb' 6 2 ++ h.extractLsb' 4 2 ++ h.extractLsb' 0 4 = h := by
  rw [BitVec.extractLsb'_append_extractLsb'_eq_extractLsb' (by omega),
    BitVec.extractLsb'_append_extractLsb'_eq_extractLsb' (by omega),
    BitVec.extractLsb'_append_extractLsb'_eq_extractLsb' (by omega)]
  simp

theorem Psw.status_withStatus (p : Psw) (h : Half) : (p.withStatus h).status = h := by
  simp only [Psw.status, Psw.withStatus, Control.bits_ofBits, CC.bits_ofBits]
  exact status_fields h

theorem Psw.full_ofFull (w : Full) : (Psw.ofFull w).full = w := by
  simp only [Psw.full, Psw.status, Psw.ofFull, Control.bits_ofBits, CC.bits_ofBits]
  rw [BitVec.extractLsb'_append_extractLsb'_eq_extractLsb' (by omega),
    BitVec.extractLsb'_append_extractLsb'_eq_extractLsb' (by omega),
    BitVec.extractLsb'_append_extractLsb'_eq_extractLsb' (by omega),
    BitVec.extractLsb'_append_extractLsb'_eq_extractLsb' (by omega)]
  simp

theorem append_high {m n : Nat} (a : BitVec m) (b : BitVec n) : (a ++ b).extractLsb' n m = a := by
  apply BitVec.eq_of_getLsbD_eq
  intro i hi
  simp [BitVec.getLsbD_append, hi]

theorem append_low {m n : Nat} (a : BitVec m) (b : BitVec n) : (a ++ b).extractLsb' 0 n = b := by
  apply BitVec.eq_of_getLsbD_eq
  intro i hi
  simp [BitVec.getLsbD_append, hi]

theorem append_inj {m n : Nat} {a c : BitVec m} {b d : BitVec n} (h : a ++ b = c ++ d) : a = c ∧ b = d :=
  ⟨by rw [← append_high a b, h, append_high], by rw [← append_low a b, h, append_low]⟩

/-- The 32 bits are the PSW. -/
theorem Psw.full_inj {p q : Psw} (h : p.full = q.full) : p = q := by
  obtain ⟨h1, h2⟩ := append_inj h
  obtain ⟨h3, h4⟩ := append_inj h1
  obtain ⟨h5, h6⟩ := append_inj h3
  obtain ⟨h7, h8⟩ := append_inj h5
  have hc : p.control = q.control := by rw [← Control.ofBits_bits p.control, h7, Control.ofBits_bits]
  have hcc : p.cc = q.cc := by rw [← CC.ofBits_bits p.cc, h4, CC.ofBits_bits]
  cases p; cases q; simp_all

theorem Psw.ofFull_full (p : Psw) : Psw.ofFull p.full = p := Psw.full_inj (Psw.full_ofFull p.full)

/-! ## Wider reads next to writes -/

/-- A halfword whose two bytes a frame leaves alone. -/
theorem SameMemoryOutside.half {b : BankNo} {a : Half} {n : Nat} {s t : State} (h : SameMemoryOutside b a n s t)
    {b' : BankNo} {a' : Half} (h0 : ¬ InSpan b a n b' a') (h1 : ¬ InSpan b a n b' (a' + 1)) :
    t.halfAt b' a' = s.halfAt b' a' := State.halfAt_congr (h b' a' h0) (h b' (a' + 1) h1)

/-- A fullword whose four bytes a frame leaves alone. -/
theorem SameMemoryOutside.full {b : BankNo} {a : Half} {n : Nat} {s t : State} (h : SameMemoryOutside b a n s t)
    {b' : BankNo} {a' : Half} (h0 : ¬ InSpan b a n b' a') (h1 : ¬ InSpan b a n b' (a' + 1))
    (h2 : ¬ InSpan b a n b' (a' + 2)) (h3 : ¬ InSpan b a n b' (a' + 2 + 1)) : t.fullAt b' a' = s.fullAt b' a' := by
  simp only [State.fullAt, h.half h0 h1, h.half h2 h3]

/-- The first halfword of a fullword that has been written. -/
theorem State.halfAt_setFull_first (s : State) (b : BankNo) (a : Half) (v : Full) :
    (s.setFull b a v).halfAt b a = v.extractLsb' 16 16 := by
  have := congrArg (BitVec.extractLsb' 16 16) (State.fullAt_setFull_same s b a v)
  rwa [State.fullAt, append_high] at this

/-! ## Exchanges -/

/-- Every New PSW location is clear of its Old PSW location. -/
theorem Interrupt.newPsw_clear (i : Interrupt) (k : Half) (hk : k.toNat < 4) :
    ¬ InSpan 0 i.oldPsw 4 0 (i.newPsw + k) := by
  rintro ⟨-, h⟩
  revert h
  have : ∀ i : Interrupt, i.newPsw = i.oldPsw + 4 := by intro i; cases i <;> rfl
  rw [this i]
  bv_omega

theorem State.setFull_frame (s : State) (b : BankNo) (a : Half) (v : Full) :
    SameMemoryOutside b a 4 s (s.setFull b a v) := (StoreFrame.setFull s b a v).memory

theorem State.fullAt_newPsw (s : State) (i : Interrupt) (v : Full) :
    (s.setFull 0 i.oldPsw v).fullAt 0 i.newPsw = s.fullAt 0 i.newPsw := by
  apply (s.setFull_frame 0 i.oldPsw v).full
  · simpa using i.newPsw_clear 0 (by decide)
  · exact i.newPsw_clear 1 (by decide)
  · exact i.newPsw_clear 2 (by decide)
  · rw [BitVec.add_assoc]; exact i.newPsw_clear 3 (by decide)

/-- The state after a PSW exchange, whole. -/
theorem State.exchanged_spec (s : State) (i : Interrupt) (a : Half) :
    Exchanges s (s.exchanged i a) i.oldPsw i.newPsw a := by
  refine ⟨?_, ?_, ⟨fun r _ => by simp, fun b' a' h => ?_, ⟨by simp, by simp, by simp, by simp, by simp⟩⟩⟩
  · simp [State.exchanged]
  · simp only [State.exchanged, State.loadedPsw_psw, Psw.full_ofFull, State.fullAt_newPsw]
  · simpa [State.exchanged] using s.setFull_frame 0 i.oldPsw (s.psw.status ++ a) b' a' h

/-- A PSW exchange, whole. -/
theorem State.raise_spec (s : State) (h : Undisturbed s) (i : Interrupt) (a : Half) :
    ∃ t, s.raise i a = .next t ∧ Exchanges s t i.oldPsw i.newPsw a :=
  ⟨_, h.raise i a, s.exchanged_spec i a⟩

/-- After an exchange the PSW is the New PSW as memory still holds it. -/
theorem State.exchanged_newPsw (s : State) (i : Interrupt) (a : Half) :
    (s.exchanged i a).psw.full = (s.exchanged i a).fullAt 0 i.newPsw := by
  simp only [State.exchanged, State.loadedPsw_psw, Psw.full_ofFull, State.loadedPsw_fullAt]

/-- The steps of a Service Pointer block at `sp`. -/
theorem State.serviceBlock (s t u : State) (sp a : Half) (ht : t = s.setFull 0 sp (s.psw.status ++ a))
    (hu : u = (t.setPsw (t.psw.withStatus (t.halfAt 0 (sp + 4)))).jump (sp + 6)) :
    u.fullAt 0 sp = s.psw.status ++ a ∧ u.psw.status = s.halfAt 0 (sp + 4) ∧ u.psw.LOC = sp + 6 ∧
      ExchangeFrame sp 4 s u := by
  have frame : SameMemoryOutside 0 sp 4 s t := by rw [ht]; exact s.setFull_frame 0 sp _
  have status : u.psw.status = t.halfAt 0 (sp + 4) := by
    rw [hu]; exact Psw.status_withStatus t.psw _
  refine ⟨by simp [hu, ht], ?_, by simp [hu], fun r _ => by simp [hu, ht], fun b' a' hb => ?_, ?_⟩
  · rw [status]
    apply frame.half <;> rintro ⟨-, h'⟩ <;> bv_omega
  · rw [← frame b' a' hb]; simp [hu]
  · rw [hu, ht]; exact ⟨rfl, rfl, rfl, rfl, rfl⟩

/-- A Service Pointer block, whole. -/
theorem State.serviceDevice_spec {s : State} (h : Undisturbed s) (d : Byte) (a sp : Half)
    (hsp : s.halfAt 0 (0x00d0 + (d.setWidth 16 + d.setWidth 16)) = sp) :
    (EvenAddress sp → ∃ t, s.serviceDevice d a = .next t ∧ t.fullAt 0 sp = s.psw.status ++ a ∧
      t.psw.status = s.halfAt 0 (sp + 4) ∧ t.psw.LOC = sp + 6 ∧ ExchangeFrame sp 4 s t) ∧
    (¬EvenAddress sp → s.serviceDevice d a = .refused .channelCommandWord) := by
  simp only [State.serviceDevice, h.readHalf, hsp, h.writeFull]
  constructor
  · intro hs
    have h' : sp.getLsbD 0 = false := hs
    rw [h', ((State.setFull_undisturbed s 0 sp _).2 h).readHalf]
    exact ⟨_, rfl, s.serviceBlock _ _ sp a rfl rfl⟩
  · intro hs
    have : sp.getLsbD 0 = true := by simpa [EvenAddress] using hs
    rw [this]; rfl

/-- The Channel Termination test, whole. -/
theorem State.testQueue_spec {s : State} (h : Undisturbed s) :
    (s.psw.control.CT = true → s.env.queueEntry = true →
      ∃ t, s.testQueue = .next t ∧ Exchanges s t 0x0082 0x0086 s.psw.LOC) ∧
    (¬(s.psw.control.CT = true ∧ s.env.queueEntry = true) → s.testQueue = .next s) := by
  constructor
  · intro h1 h2
    simp only [State.testQueue, h1, h2, Bool.and_self, if_true]
    exact s.raise_spec h .channelTermination _
  · intro hn
    simp only [State.testQueue, ← Bool.and_eq_true] at *
    rw [if_neg hn]

end Sys2Proof.Machine
end

