-- ==== Sys2Proof/Laws/Device.lean ====
section
/-! SUPPORT. What the shared operations of the input/output instructions do, said once. -/

namespace Sys2Proof.Machine

/-! ## Frames -/

theorem DeviceFrame.refl (rs : List RegNo) (b : BankNo) (a : Half) (n : Nat) (s : State) : DeviceFrame rs b a n s s :=
  ⟨fun _ _ => rfl, fun _ _ _ => rfl, ⟨rfl, rfl, rfl⟩, ⟨rfl, rfl, rfl, rfl, rfl, rfl⟩⟩

theorem DeviceFrame.trans {rs : List RegNo} {b : BankNo} {a : Half} {n : Nat} {s t u : State}
    (h : DeviceFrame rs b a n s t) (k : DeviceFrame rs b a n t u) : DeviceFrame rs b a n s u :=
  ⟨fun r hr => (k.regs r hr).trans (h.regs r hr), fun b' a' x => (k.memory b' a' x).trans (h.memory b' a' x),
    ⟨k.modes.1.trans h.modes.1, k.modes.2.1.trans h.modes.2.1, k.modes.2.2.trans h.modes.2.2⟩,
    ⟨k.units.1.trans h.units.1, k.units.2.1.trans h.units.2.1, k.units.2.2.1.trans h.units.2.2.1,
      k.units.2.2.2.1.trans h.units.2.2.2.1, k.units.2.2.2.2.1.trans h.units.2.2.2.2.1,
      k.units.2.2.2.2.2.trans h.units.2.2.2.2.2⟩⟩

/-- A state that differs from `u` in flags, location counter, draws and answers alone is framed as `u` is. -/
theorem DeviceFrame.flags {rs : List RegNo} {b : BankNo} {a : Half} {n : Nat} {s u t : State}
    (f : DeviceFrame rs b a n s u) (hx : t.x = u.x) (hm : t.mem = u.mem) (hc : t.psw.control = u.psw.control)
    (hi : t.psw.IB = u.psw.IB) (ho : t.psw.OB = u.psw.OB)
    (hu : t.cpr = u.cpr ∧ t.power = u.power ∧ t.runMode = u.runMode ∧ t.install = u.install ∧
      t.env.inputs = u.env.inputs ∧ t.env.transfers = u.env.transfers) :
    DeviceFrame rs b a n s t :=
  f.trans ⟨fun r _ => by simp [State.reg, hx], fun _ _ _ => by simp [State.byteAt, hm], ⟨hc, hi, ho⟩, hu⟩

theorem DeviceFrame.setReg {rs : List RegNo} {b : BankNo} {a : Half} {n : Nat} {s u : State}
    (f : DeviceFrame rs b a n s u) {r : RegNo} (v : Half) (h : r ∈ rs) : DeviceFrame rs b a n s (u.setReg r v) :=
  f.trans ⟨fun _ hq => State.reg_setReg_other u v (fun e => hq (e ▸ h)), fun _ _ _ => rfl, ⟨rfl, rfl, rfl⟩,
    ⟨rfl, rfl, rfl, rfl, rfl, rfl⟩⟩

theorem DeviceFrame.setByte {rs : List RegNo} {b : BankNo} {a : Half} {n : Nat} {s u : State}
    (f : DeviceFrame rs b a n s u) {a' : Half} (v : Byte) (h : InSpan b a n b a') :
    DeviceFrame rs b a n s (u.setByte b a' v) :=
  f.trans ⟨fun _ _ => rfl, fun b'' a'' x => State.byteAt_setByte_other u v (by rintro ⟨rfl, rfl⟩; exact x h),
    ⟨rfl, rfl, rfl⟩, ⟨rfl, rfl, rfl, rfl, rfl, rfl⟩⟩

theorem DeviceFrame.setHalf {rs : List RegNo} {b : BankNo} {a : Half} {s u : State}
    (f : DeviceFrame rs b a 2 s u) (v : Half) : DeviceFrame rs b a 2 s (u.setHalf b a v) :=
  (f.setByte _ ⟨rfl, by simp⟩).setByte _ ⟨rfl, by simp⟩

/-- A frame of fewer bytes. -/
theorem DeviceFrame.mono {rs : List RegNo} {b : BankNo} {a : Half} {n m : Nat} {s t : State}
    (f : DeviceFrame rs b a n s t) (h : n ≤ m) : DeviceFrame rs b a m s t :=
  ⟨f.regs, fun b' a' x => f.memory b' a' (fun ⟨e, l⟩ => x ⟨e, Nat.lt_of_lt_of_le l h⟩), f.modes, f.units⟩

/-- A frame of no bytes is a frame of any. -/
theorem DeviceFrame.nowhere {rs : List RegNo} {b b' : BankNo} {a a' : Half} {n : Nat} {s t : State}
    (f : DeviceFrame rs b a 0 s t) : DeviceFrame rs b' a' n s t :=
  ⟨f.regs, fun b' a' _ => f.memory b' a' (fun ⟨_, l⟩ => Nat.not_lt_zero _ l), f.modes, f.units⟩

/-! ## Addressing a device -/

/-- The device number in R1 (48_input_output.md rule R331). -/
theorem State.withDevice_number {s : State} {r1 : RegNo} {d : Byte} (h : s.reg r1 = d.setWidth 16) (k : Byte → Outcome) :
    s.withDevice r1 k = k d := by
  have h1 : highByte (s.reg r1) = 0 := by
    rw [h]
    apply BitVec.eq_of_toNat_eq
    have := d.isLt
    simp [highByte, BitVec.extractLsb'_toNat, Nat.shiftRight_eq_div_pow]
    omega
  have h2 : lowByte (s.reg r1) = d := by
    rw [h]
    apply BitVec.eq_of_toNat_eq
    have := d.isLt
    simp [lowByte, BitVec.extractLsb'_toNat]
    omega
  rw [State.withDevice, h2, require_holds h1]

theorem State.selected_sync {s : State} (h : s.selectAnswer = true) (d : Byte) (late sync : State → Outcome) :
    s.selected d late sync = sync (s.afterSelect d) := by simp only [State.selected, h, if_true]

theorem State.selected_late {s : State} (h : s.selectAnswer = false) (d : Byte) (late sync : State → Outcome) :
    s.selected d late sync = late (s.afterSelect d) := by
  simp only [State.selected, h, Bool.false_eq_true, if_false]

@[simp] theorem State.afterSelect_env (s : State) (d : Byte) : (s.afterSelect d).env = s.env.selected d := rfl

@[simp] theorem State.afterAcknowledge_env (s : State) : s.afterAcknowledge.env = s.env.acknowledged := rfl

theorem DeviceFrame.afterSelect (rs : List RegNo) (b : BankNo) (a : Half) (n : Nat) (s : State) (d : Byte) :
    DeviceFrame rs b a n s (s.afterSelect d) :=
  (DeviceFrame.refl rs b a n s).flags rfl rfl rfl rfl rfl ⟨rfl, rfl, rfl, rfl, rfl, rfl⟩

theorem DeviceFrame.afterAcknowledge (rs : List RegNo) (b : BankNo) (a : Half) (n : Nat) (s : State) :
    DeviceFrame rs b a n s s.afterAcknowledge :=
  (DeviceFrame.refl rs b a n s).flags rfl rfl rfl rfl rfl ⟨rfl, rfl, rfl, rfl, rfl, rfl⟩

theorem DeviceFrame.advance {rs : List RegNo} {b : BankNo} {a : Half} {n : Nat} {s u : State}
    (f : DeviceFrame rs b a n s u) (len : Half) : DeviceFrame rs b a n s (u.advance len) :=
  f.flags rfl rfl rfl rfl rfl ⟨rfl, rfl, rfl, rfl, rfl, rfl⟩

/-- An input/output instruction that completes, whole. -/
theorem deviceCompletes_of {i : Instr} {s u : State} {rs : List RegNo} {b : BankNo} {a : Half} {n : Nat} {len : Half}
    {e : Env} {p : State → Prop} (hi : exec i s = .next (u.advance len)) (he : u.env = e) (hl : u.psw.LOC = s.psw.LOC)
    (hf : DeviceFrame rs b a n s u) (hp : p (u.advance len)) : DeviceCompletes i s rs b a n len e p :=
  ⟨_, hi, hp, by simp [hl], by simp [he], hf.advance len⟩

/-- A device that does not answer, whole. -/
theorem timesOut_of {i : Instr} {s u : State} {rs : List RegNo} {b : BankNo} {a : Half} {n : Nat} {len : Half} {d : Byte}
    (hi : exec i s = timedOut len u) (he : u.env = s.env.selected d) (hl : u.psw.LOC = s.psw.LOC)
    (hf : DeviceFrame rs b a n s u) : TimesOut i s rs b a n len d :=
  deviceCompletes_of (u := u.setDataCC true) hi he hl (hf.flags rfl rfl rfl rfl rfl ⟨rfl, rfl, rfl, rfl, rfl, rfl⟩) rfl

/-! ## Block transfers -/

theorem headD_eq_first {α : Type} (l : List α) (d : α) (h : 0 < l.length) : l.headD d = l[0] := by
  cases l with
  | nil => simp at h
  | cons x xs => rfl

theorem readBlockCalls_first (d : Byte) (k : Nat) :
    readBlockCalls d k ++ [.read d, .status d] = readBlockCalls d (k + 1) := by
  induction k with
  | zero => rfl
  | succ k ih => rw [readBlockCalls, List.cons_append, List.cons_append, ih]; rfl

/-- The loop of Read Block (48_input_output.md rule R348): it stops after `k` bytes. -/
theorem State.blockRead_spec (b : BankNo) (d : Byte) (n : Nat) (a : Half) (s : State) (hn : a.toNat + n ≤ 65536) :
    ∃ k ≤ n, (∀ j < k, statusNibble (s.env.statuses.getD j 0x01) = 0) ∧
      ((k = n ∧ (State.blockRead b d n a s).psw.cc.bits = 0) ∨
        (k < n ∧ (State.blockRead b d n a s).psw.cc.bits = statusNibble (s.env.statuses.getD k 0x01) ∧
          (State.blockRead b d n a s).psw.cc.bits ≠ 0)) ∧
      (∀ j (h : j < s.env.reads.length), j < k →
        (State.blockRead b d n a s).byteAt b (a + BitVec.ofNat 16 j) = s.env.reads[j]) ∧
      (State.blockRead b d n a s).env.calls =
        (if k < n then [.status d] else []) ++ readBlockCalls d k ++ s.env.calls ∧
      (State.blockRead b d n a s).psw.LOC = s.psw.LOC ∧ DeviceFrame [] b a k s (State.blockRead b d n a s) := by
  induction n generalizing a s with
  | zero =>
    refine ⟨0, le_refl _, by simp, .inl ⟨rfl, by simp [State.blockRead, CC.bits_ofBits]⟩, by simp,
      by simp [State.blockRead, readBlockCalls], rfl, ?_⟩
    exact (DeviceFrame.refl _ _ _ _ s).flags rfl rfl rfl rfl rfl ⟨rfl, rfl, rfl, rfl, rfl, rfl⟩
  | succ n ih =>
    have h0 : s.env.statuses.getD 0 0x01 = s.statusAnswer := by
      simp only [State.statusAnswer]; cases s.env.statuses <;> rfl
    simp only [State.blockRead]
    by_cases hs : statusNibble s.statusAnswer = 0
    · rw [if_neg (not_not.mpr hs)]
      generalize ht : (((s.afterStatus d).afterRead d).setByte b a (s.afterStatus d).readAnswer) = t
      have htail : ∀ j, t.env.statuses.getD j 0x01 = s.env.statuses.getD (j + 1) 0x01 := by
        intro j; rw [← ht]; simp only [State.setByte_env]
        change (s.env.statuses.tail).getD j 0x01 = _
        cases s.env.statuses <;> simp
      have hreads : t.env.reads = s.env.reads.tail := by rw [← ht]; rfl
      have hcalls : t.env.calls = .read d :: .status d :: s.env.calls := by rw [← ht]; rfl
      have hloc : t.psw.LOC = s.psw.LOC := by rw [← ht]; rfl
      have hbyte : ∀ h : 0 < s.env.reads.length, t.byteAt b a = s.env.reads[0] := by
        intro h
        rw [← ht, State.byteAt_setByte_same]
        have : (s.afterStatus d).readAnswer = s.env.reads.headD (lowByte ((s.afterStatus d).undefHalf 0)) := rfl
        rw [this]
        exact headD_eq_first _ _ h
      have hframe : DeviceFrame [] b a 1 s t := by
        rw [← ht]
        exact ((DeviceFrame.refl [] b a 1 s).flags (u := s) (t := (s.afterStatus d).afterRead d) rfl rfl rfl rfl rfl
          ⟨rfl, rfl, rfl, rfl, rfl, rfl⟩).setByte _ ⟨rfl, by simp⟩
      by_cases hz : n = 0
      · subst hz
        refine ⟨1, le_refl _, fun j hj => ?_, .inl ⟨rfl, by simp [State.blockRead, CC.bits_ofBits]⟩, fun j h hj => ?_,
          by simp [State.blockRead, readBlockCalls, hcalls], hloc, ?_⟩
        · obtain rfl : j = 0 := by omega
          rwa [h0]
        · obtain rfl : j = 0 := by omega
          simpa [State.blockRead] using hbyte h
        · exact hframe.flags rfl rfl rfl rfl rfl ⟨rfl, rfl, rfl, rfl, rfl, rfl⟩
      · have ha : (a + 1).toNat = a.toNat + 1 := by rw [BitVec.toNat_add]; simp; omega
        obtain ⟨k, hk, i1, i2, i3, ic, i4, i5⟩ := ih (a + 1) t (by omega)
        refine ⟨k + 1, by omega, fun j hj => ?_, ?_, fun j h hj => ?_, ?_, i4.trans hloc, ?_⟩
        · cases j with
          | zero => rwa [h0]
          | succ j => rw [← htail]; exact i1 j (by omega)
        · rcases i2 with ⟨e, i2⟩ | ⟨e, i2, i2'⟩
          · exact .inl ⟨by omega, i2⟩
          · exact .inr ⟨by omega, by rw [← htail]; exact i2, i2'⟩
        · cases j with
          | zero =>
            rw [i5.memory b _ (by rintro ⟨-, x⟩; bv_omega)]
            simpa using hbyte h
          | succ j =>
            have := i3 j (by rw [hreads]; simp; omega) (by omega)
            rw [show a + BitVec.ofNat 16 (j + 1) = a + 1 + BitVec.ofNat 16 j by
              rw [BitVec.add_assoc, BitVec.ofNat_add, BitVec.add_comm (BitVec.ofNat 16 j)]; rfl, this]
            simp [hreads]
        · rw [ic, hcalls, ← readBlockCalls_first]
          simp only [Nat.add_lt_add_iff_right, List.append_assoc, List.cons_append, List.nil_append]
        · refine (hframe.mono (by omega)).trans ⟨i5.regs, fun b' a' x => i5.memory b' a' ?_, i5.modes, i5.units⟩
          rintro ⟨rfl, l⟩
          exact x ⟨rfl, by bv_omega⟩
    · rw [if_pos hs]
      refine ⟨0, by omega, by simp, .inr ⟨by omega, ?_, ?_⟩, by simp, ?_, rfl, ?_⟩
      · rw [h0]; simp [CC.bits_ofBits]
      · simpa [CC.bits_ofBits] using hs
      · simp only [Nat.succ_pos, if_true]; rfl
      · exact (DeviceFrame.refl _ _ _ _ s).flags rfl rfl rfl rfl rfl ⟨rfl, rfl, rfl, rfl, rfl, rfl⟩

/-- The loop of Write Block (48_input_output.md rule R348): it stops after `k` bytes and writes no memory. -/
theorem State.blockWritten_frame (b : BankNo) (d : Byte) (n : Nat) (a : Half) (s : State) :
    (State.blockWritten b d n a s).psw.LOC = s.psw.LOC ∧ DeviceFrame [] 0 0 0 s (State.blockWritten b d n a s) := by
  induction n generalizing a s with
  | zero => exact ⟨rfl, (DeviceFrame.refl _ _ _ _ s).flags rfl rfl rfl rfl rfl ⟨rfl, rfl, rfl, rfl, rfl, rfl⟩⟩
  | succ n ih =>
    simp only [State.blockWritten]
    split
    · exact ⟨rfl, (DeviceFrame.refl _ _ _ _ s).flags rfl rfl rfl rfl rfl ⟨rfl, rfl, rfl, rfl, rfl, rfl⟩⟩
    · obtain ⟨h1, h2⟩ := ih (a + 1) ((s.afterStatus d).called (.write d ((s.afterStatus d).byteAt b a)))
      refine ⟨h1, DeviceFrame.trans ?_ h2⟩
      exact (DeviceFrame.refl _ _ _ _ s).flags rfl rfl rfl rfl rfl ⟨rfl, rfl, rfl, rfl, rfl, rfl⟩

end Sys2Proof.Machine
end

