-- ==== Sys2Proof/Laws/Fitted.lean ====
section
/-! SUPPORT. What the accesses to memory do where some of it is absent or read-only (20_memory.md rule R62). -/

namespace Sys2Proof.Machine

/-! ## Absent memory -/

/-- What is absent is a matter of the installation alone. -/
theorem Absent.congr {s t : State} (h : t.install = s.install) {b : BankNo} {a : Half} {n : Nat} (k : Absent s b a n) :
    Absent t b a n := by
  simpa only [Absent, h] using k

theorem absent_add (s : State) (b : BankNo) (a : Half) (m n : Nat) :
    Absent s b a (m + n) ↔ Absent s b a m ∨ Absent s b (a + BitVec.ofNat 16 m) n := by
  constructor
  · rintro ⟨k, hk, h⟩
    by_cases c : k < m
    · exact .inl ⟨k, c, h⟩
    · refine .inr ⟨k - m, by omega, ?_⟩
      rwa [BitVec.add_assoc, ← BitVec.ofNat_add, Nat.add_sub_cancel' (not_lt.1 c)]
  · rintro (⟨k, hk, h⟩ | ⟨k, hk, h⟩)
    · exact ⟨k, by omega, h⟩
    · refine ⟨m + k, by omega, ?_⟩
      rwa [BitVec.ofNat_add, ← BitVec.add_assoc]

theorem State.hasByte_eq_false {s : State} {b : BankNo} {a : Half} (h : Absent s b a 1) : s.hasByte b a = false := by
  obtain ⟨k, hk, h⟩ := h
  obtain rfl : k = 0 := by omega
  simpa [State.hasByte] using h

theorem State.hasHalf_eq_false {s : State} {b : BankNo} {a : Half} (h : Absent s b a 2) : s.hasHalf b a = false := by
  rw [absent_add s b a 1 1] at h
  rw [State.hasHalf, Bool.and_eq_false_iff]
  exact h.imp State.hasByte_eq_false State.hasByte_eq_false

/-- The outcome of an access to absent memory. -/
abbrev AbsentStop : Outcome := .refused .absentMemory

section

variable {s : State} {b : BankNo} {a : Half}

/-- A transfer after which there is nothing but an access to absent memory. -/
theorem State.readByte_then {k : Byte → State → Outcome} (h : ∀ v t, t.install = s.install → k v t = AbsentStop) :
    s.readByte b a k = AbsentStop := by
  rw [State.readByte, require, h _ _ (State.transfer_install s), ite_self]

theorem State.readHalf_then {k : Half → State → Outcome} (h : ∀ v t, t.install = s.install → k v t = AbsentStop) :
    s.readHalf b a k = AbsentStop := by
  rw [State.readHalf, require, h _ _ (State.transfer_install s), ite_self]

theorem State.readFull_then {k : Full → State → Outcome} (h : ∀ v t, t.install = s.install → k v t = AbsentStop) :
    s.readFull b a k = AbsentStop :=
  State.readHalf_then fun _ _ ht => State.readHalf_then fun _ _ hu => h _ _ (hu.trans ht)

@[simp] theorem State.storeByte_install (v : Byte) : (s.storeByte b a v).install = s.install := by
  unfold State.storeByte; split <;> rfl

@[simp] theorem State.storeHalf_install (v : Half) : (s.storeHalf b a v).install = s.install := by
  simp [State.storeHalf]

theorem State.writeHalf_then {v : Half} {k : State → Outcome} (h : ∀ t, t.install = s.install → k t = AbsentStop) :
    s.writeHalf b a v k = AbsentStop := by
  rw [State.writeHalf, require, h _ (by simp), ite_self]

theorem State.writeFull_then {v : Full} {k : State → Outcome} (h : ∀ t, t.install = s.install → k t = AbsentStop) :
    s.writeFull b a v k = AbsentStop :=
  State.writeHalf_then fun _ ht => State.writeHalf_then fun _ hu => h _ (hu.trans ht)

theorem State.readByte_absent (h : Absent s b a 1) (k : Byte → State → Outcome) : s.readByte b a k = AbsentStop := by
  rw [State.readByte, State.hasByte_eq_false h]; rfl

theorem State.readHalf_absent (h : Absent s b a 2) (k : Half → State → Outcome) : s.readHalf b a k = AbsentStop := by
  rw [State.readHalf, State.hasHalf_eq_false h]; rfl

theorem State.readFull_absent (h : Absent s b a 4) (k : Full → State → Outcome) : s.readFull b a k = AbsentStop := by
  rcases (absent_add s b a 2 2).1 h with h | h
  · exact State.readHalf_absent h _
  · exact State.readHalf_then fun _ t ht => State.readHalf_absent (h.congr ht) _

theorem State.writeByte_absent (h : Absent s b a 1) (v : Byte) (k : State → Outcome) :
    s.writeByte b a v k = AbsentStop := by
  rw [State.writeByte, State.hasByte_eq_false h]; rfl

theorem State.writeHalf_absent (h : Absent s b a 2) (v : Half) (k : State → Outcome) :
    s.writeHalf b a v k = AbsentStop := by
  rw [State.writeHalf, State.hasHalf_eq_false h]; rfl

theorem State.writeFull_absent (h : Absent s b a 4) (v : Full) (k : State → Outcome) :
    s.writeFull b a v k = AbsentStop := by
  rcases (absent_add s b a 2 2).1 h with h | h
  · exact State.writeHalf_absent h _ _
  · exact State.writeHalf_then fun t ht => State.writeHalf_absent (h.congr ht) _ _

end

theorem State.loadMultiple_absent {s : State} {b : BankNo} {a : Half} (n : Nat) (r : RegNo) (h : Absent s b a (2 * n))
    (k : State → Outcome) : State.loadMultiple b n r a k s = AbsentStop := by
  induction n generalizing s r a with
  | zero => obtain ⟨k, hk, -⟩ := h; omega
  | succ n ih =>
    rw [Nat.mul_succ, Nat.add_comm, absent_add] at h
    rcases h with h | h
    · exact State.readHalf_absent h _
    · exact State.readHalf_then fun v t ht => ih (r + 1) (h.congr (t := t.setReg r v) ht)

theorem State.storeMultiple_absent {s : State} {b : BankNo} {a : Half} (n : Nat) (r : RegNo) (h : Absent s b a (2 * n))
    (k : State → Outcome) : State.storeMultiple b n r a k s = AbsentStop := by
  induction n generalizing s r a with
  | zero => obtain ⟨k, hk, -⟩ := h; omega
  | succ n ih =>
    rw [Nat.mul_succ, Nat.add_comm, absent_add] at h
    rcases h with h | h
    · exact State.writeHalf_absent h _ _
    · exact State.writeHalf_then fun t ht => ih (r + 1) (h.congr ht)

/-- A PSW exchange whose Old or New PSW is not there. -/
theorem State.exchange_absent {s : State} {i : Interrupt} (h : Absent s 0 i.oldPsw 4 ∨ Absent s 0 i.newPsw 4) (a : Half)
    (k : State → Outcome) : s.exchange i a k = AbsentStop := by
  rcases h with h | h
  · exact State.writeFull_absent h _ _
  · exact State.writeFull_then fun t ht => State.readFull_absent (h.congr ht) _

/-! ## Read-only memory -/

theorem readOnly_add {s : State} {b : BankNo} {a : Half} {m n : Nat} (h : ReadOnly s b a (m + n)) :
    ReadOnly s b a m ∧ ReadOnly s b (a + BitVec.ofNat 16 m) n := by
  refine ⟨fun k hk => h k (by omega), fun k hk => ?_⟩
  have := h (m + k) (by omega)
  rwa [BitVec.ofNat_add, ← BitVec.add_assoc] at this

section

variable {s : State} {b : BankNo} {a : Half}

theorem ReadOnly.byte (h : ReadOnly s b a 1) : s.hasByte b a = true ∧ isWritable s.install (physical b a) = false := by
  simpa [State.hasByte] using h 0 (by omega)

/-- A byte written to read-only memory, no other agent writing. -/
theorem ReadOnly.writeByte (h : ReadOnly s b a 1) (ht : s.env.transfers = []) (v : Byte) (k : State → Outcome) :
    s.writeByte b a v k = k s := by
  have e : s.transfer = s := by simp only [State.transfer, ht]
  simp [State.writeByte, require, h.byte.1, e, State.storeByte, h.byte.2]

theorem ReadOnly.writeHalf (h : ReadOnly s b a 2) (ht : s.env.transfers = []) (v : Half) (k : State → Outcome) :
    s.writeHalf b a v k = k s := by
  have e : s.transfer = s := by simp only [State.transfer, ht]
  obtain ⟨h0, h1⟩ := readOnly_add (m := 1) (n := 1) h
  simp [State.writeHalf, State.hasHalf, require, e, State.storeHalf, State.storeByte, h0.byte.1, h0.byte.2, h1.byte.1,
    h1.byte.2]

theorem ReadOnly.writeFull (h : ReadOnly s b a 4) (ht : s.env.transfers = []) (v : Full) (k : State → Outcome) :
    s.writeFull b a v k = k s := by
  obtain ⟨h0, h1⟩ := readOnly_add (m := 2) (n := 2) h
  rw [State.writeFull, h0.writeHalf ht]
  exact h1.writeHalf ht _ _

end

theorem ReadOnly.storeMultiple {s : State} {b : BankNo} (n : Nat) (r : RegNo) (a : Half) (h : ReadOnly s b a (2 * n))
    (ht : s.env.transfers = []) (k : State → Outcome) : State.storeMultiple b n r a k s = k s := by
  induction n generalizing r a with
  | zero => rfl
  | succ n ih =>
    rw [Nat.mul_succ, Nat.add_comm] at h
    obtain ⟨h0, h1⟩ := readOnly_add h
    rw [State.storeMultiple, h0.writeHalf ht]
    exact ih _ _ h1

end Sys2Proof.Machine
end

