-- ==== Sys2Proof/Laws/FixedPoint.lean ====
section
/-! SUPPORT. What each shared operation of the fixed-point, byte, shift and branch families does, said once. -/

namespace Sys2Proof.Machine

/-- A pair of registers, changed in flags, location counter and draws. -/
theorem RegisterFrame.afterFlags {rs : List RegNo} {s u : State} (f : RegisterFrame rs s u) (p : Psw) (n : Nat)
    (hc : p.control = u.psw.control) (hi : p.IB = u.psw.IB) (ho : p.OB = u.psw.OB) :
    RegisterFrame rs s { u with psw := p, draws := n } :=
  f.flags rfl rfl hc hi ho ⟨rfl, rfl, rfl, rfl, rfl⟩

theorem loadHalf_spec (r1 : RegNo) (v len : Half) (s : State) : ∃ t, loadHalf r1 v len s = .next t ∧
    (t.reg r1 = v ∧ ShowsSign t.psw.cc v ∧ t.psw.LOC = s.psw.LOC + len ∧ RegisterFrame [r1] s t) :=
  ⟨_, rfl, by simp, showsSign_of rfl rfl, rfl,
    (RegisterFrame.setReg r1 v (by simp) s).flags rfl rfl rfl rfl rfl ⟨rfl, rfl, rfl, rfl, rfl⟩⟩

theorem loadFull_spec (r1 : RegNo) (v : Full) (len : Half) (s : State) : ∃ t, loadFull r1 v len s = .next t ∧
    (t.pair r1 = v ∧ ShowsSign t.psw.cc v ∧ t.psw.LOC = s.psw.LOC + len ∧ RegisterFrame [r1, r1 + 1] s t) :=
  ⟨_, rfl, by simp, showsSign_of rfl rfl, rfl,
    (RegisterFrame.setPair r1 v (by simp) (by simp) s).flags rfl rfl rfl rfl rfl ⟨rfl, rfl, rfl, rfl, rfl⟩⟩

/-- The registers from `r` on hold the halfwords from `a` on; nothing else changes. -/
theorem State.loadedMultiple_spec (b : BankNo) (n : Nat) (s : State) (r : RegNo) (a : Half) (h : r.toNat + n = 16) :
    (∀ q : RegNo, r.toNat ≤ q.toNat →
      (s.loadedMultiple b n r a).reg q = s.halfAt b (a + BitVec.ofNat 16 (2 * (q.toNat - r.toNat)))) ∧
    (∀ q : RegNo, q.toNat < r.toNat → (s.loadedMultiple b n r a).reg q = s.reg q) ∧
    (s.loadedMultiple b n r a).mem = s.mem ∧ (s.loadedMultiple b n r a).psw = s.psw ∧
    SameUnits s (s.loadedMultiple b n r a) := by
  induction n generalizing s r a with
  | zero => exact absurd r.isLt (by omega)
  | succ n ih =>
    simp only [State.loadedMultiple]
    by_cases hn : n = 0
    · subst hn
      simp only [State.loadedMultiple]
      refine ⟨fun q hq => ?_, fun q hq => State.reg_setReg_other _ _ (by rintro rfl; omega), rfl, rfl, rfl, rfl, rfl, rfl, rfl⟩
      obtain rfl : q = r := BitVec.eq_of_toNat_eq (by have := q.isLt; omega)
      simp
    · have hr : (r + 1).toNat = r.toNat + 1 := by rw [BitVec.toNat_add]; simp; omega
      obtain ⟨i1, i2, i3, i4, i5⟩ := ih (s.setReg r (s.halfAt b a)) (r + 1) (a + 2) (by omega)
      refine ⟨fun q hq => ?_, fun q hq => ?_, i3, i4, i5⟩
      · by_cases hqr : q = r
        · subst hqr; rw [i2 q (by omega)]; simp
        · have : r.toNat ≠ q.toNat := fun e => hqr (BitVec.eq_of_toNat_eq e.symm)
          rw [i1 q (by omega), State.setReg_halfAt, hr,
            show q.toNat - r.toNat = (q.toNat - (r.toNat + 1)) + 1 by omega, Nat.mul_add, Nat.mul_one,
            BitVec.ofNat_add, BitVec.add_assoc, BitVec.add_comm 2]
          rfl
      · rw [i2 q (by omega), State.reg_setReg_other]
        rintro rfl; omega

/-- The bytes outside the area that is written read as before. -/
theorem State.storedMultiple_outside (b : BankNo) (n : Nat) (s : State) (r : RegNo) (a : Half) (hn : n ≤ 16) :
    SameMemoryOutside b a (2 * n) s (s.storedMultiple b n r a) := by
  induction n generalizing s r a with
  | zero => exact fun _ _ _ => rfl
  | succ n ih =>
    intro b' a' h
    simp only [State.storedMultiple]
    rw [ih _ (r + 1) (a + 2) (by omega) b' a', State.byteAt_setHalf_outside]
    · rintro ⟨rfl, h2⟩; exact h ⟨rfl, by omega⟩
    · rintro ⟨rfl, h2⟩; exact h ⟨rfl, by bv_omega⟩

theorem State.storedMultiple_keeps (b : BankNo) (n : Nat) (s : State) (r : RegNo) (a : Half) :
    (s.storedMultiple b n r a).x = s.x ∧ (s.storedMultiple b n r a).psw = s.psw ∧
      SameUnits s (s.storedMultiple b n r a) ∧ (s.storedMultiple b n r a).draws = s.draws := by
  induction n generalizing s r a with
  | zero => exact ⟨rfl, rfl, ⟨rfl, rfl, rfl, rfl, rfl⟩, rfl⟩
  | succ n ih => exact ih (s.setHalf b a (s.reg r)) (r + 1) (a + 2)

/-- The halfwords from `a` on hold the registers from `r` on. -/
theorem State.storedMultiple_stored (b : BankNo) (n : Nat) (s : State) (r : RegNo) (a : Half) (h : r.toNat + n = 16)
    (q : RegNo) (hq : r.toNat ≤ q.toNat) :
    (s.storedMultiple b n r a).halfAt b (a + BitVec.ofNat 16 (2 * (q.toNat - r.toNat))) = s.reg q := by
  induction n generalizing s r a with
  | zero => exact absurd r.isLt (by omega)
  | succ n ih =>
    simp only [State.storedMultiple]
    by_cases hqr : q = r
    · subst hqr
      simp only [Nat.sub_self, Nat.mul_zero]
      have out := State.storedMultiple_outside b n (s.setHalf b a (s.reg q)) (q + 1) (a + 2) (by omega)
      rw [show a + BitVec.ofNat 16 0 = a by simp]
      rw [State.halfAt_congr (s := s.setHalf b a (s.reg q)), State.halfAt_setHalf_same]
      · exact out b a (by rintro ⟨-, h2⟩; bv_omega)
      · exact out b (a + 1) (by rintro ⟨-, h2⟩; bv_omega)
    · have hne : r.toNat ≠ q.toNat := fun e => hqr (BitVec.eq_of_toNat_eq e.symm)
      have hr : (r + 1).toNat = r.toNat + 1 := by
        rw [BitVec.toNat_add]; simp; have := q.isLt; omega
      have := ih (s.setHalf b a (s.reg r)) (r + 1) (a + 2) (by omega) (by omega)
      rw [State.setHalf_reg] at this
      rw [← this, hr, show q.toNat - r.toNat = (q.toNat - (r.toNat + 1)) + 1 by omega, Nat.mul_add, Nat.mul_one,
            BitVec.ofNat_add, BitVec.add_assoc a 2, BitVec.add_comm 2]
      rfl

theorem sumHalf_spec (r1 : RegNo) (r : SumResult 16) (len : Half) (s : State) : ∃ t, sumHalf r1 r len s = .next t ∧
    (t.reg r1 = r.value ∧ t.psw.cc = r.cc ∧ t.psw.LOC = s.psw.LOC + len ∧ RegisterFrame [r1] s t) :=
  ⟨_, rfl, by simp, rfl, rfl,
    (RegisterFrame.setReg r1 _ (by simp) s).flags rfl rfl rfl rfl rfl ⟨rfl, rfl, rfl, rfl, rfl⟩⟩

theorem sumFull_spec (r1 : RegNo) (r : SumResult 32) (len : Half) (s : State) : ∃ t, sumFull r1 r len s = .next t ∧
    (t.pair r1 = r.value ∧ t.psw.cc = r.cc ∧ t.psw.LOC = s.psw.LOC + len ∧ RegisterFrame [r1, r1 + 1] s t) :=
  ⟨_, rfl, by simp, rfl, rfl,
    (RegisterFrame.setPair r1 _ (by simp) (by simp) s).flags rfl rfl rfl rfl rfl ⟨rfl, rfl, rfl, rfl, rfl⟩⟩

theorem productFull_spec (r1 : RegNo) (p : Full) (len : Half) (s : State) : ∃ t, productFull r1 p len s = .next t ∧
    (t.pair r1 = p ∧ t.psw.cc = s.psw.cc ∧ t.psw.LOC = s.psw.LOC + len ∧ RegisterFrame [r1, r1 + 1] s t) :=
  ⟨_, rfl, by simp, rfl, rfl,
    (RegisterFrame.setPair r1 _ (by simp) (by simp) s).flags rfl rfl rfl rfl rfl ⟨rfl, rfl, rfl, rfl, rfl⟩⟩

theorem productDouble_spec (r1 : RegNo) (p : Dbl) (len : Half) (s : State) :
    ∃ t, productDouble r1 p len s = .next t ∧ (t.quad r1 = p ∧ t.psw.cc = s.psw.cc ∧
      t.psw.LOC = s.psw.LOC + len ∧ RegisterFrame [r1, r1 + 1, r1 + 2, r1 + 3] s t) :=
  ⟨_, rfl, by simp, rfl, rfl,
    (RegisterFrame.setQuad r1 _ (by simp) (by simp) (by simp) (by simp) s).flags rfl rfl rfl rfl rfl
      ⟨rfl, rfl, rfl, rfl, rfl⟩⟩

/-- The signed product of two halfwords fits a fullword, that of two fullwords a doubleword. -/
theorem signedProduct_toInt {n : Nat} (a b : BitVec (n + 1)) :
    (signedProduct a b (2 * (n + 1))).toInt = a.toInt * b.toInt := by
  have h1 := BitVec.le_toInt a; have h2 := BitVec.toInt_lt (x := a)
  have h3 := BitVec.le_toInt b; have h4 := BitVec.toInt_lt (x := b)
  simp only [Nat.add_sub_cancel] at h1 h2 h3 h4
  have e : (2 : Int) ^ (2 * (n + 1)) = 4 * (2 ^ n * 2 ^ n) := by
    rw [show 2 * (n + 1) = n + n + 2 by ring, pow_add, pow_add]; ring
  have hp : (0 : Int) < 2 ^ n := by positivity
  unfold signedProduct
  rw [BitVec.toInt_ofInt, Int.bmod_eq_of_le]
  · push_cast; rw [e]
    have : (4 * ((2 : Int) ^ n * 2 ^ n)) / 2 = 2 * (2 ^ n * 2 ^ n) := by omega
    rw [this]; nlinarith
  · push_cast; rw [e]
    have : (4 * ((2 : Int) ^ n * 2 ^ n) + 1) / 2 = 2 * (2 ^ n * 2 ^ n) := by omega
    rw [this]; nlinarith

theorem unsignedProduct_toNat {n : Nat} (a b : BitVec n) :
    (unsignedProduct a b (2 * n)).toNat = a.toNat * b.toNat := by
  unfold unsignedProduct
  rw [BitVec.toNat_ofNat, Nat.mod_eq_of_lt]
  rw [two_mul, pow_add]; exact Nat.mul_lt_mul'' a.isLt b.isLt

theorem compareLogical_spec {n : Nat} (a b : BitVec n) (len : Half) (s : State) :
    ∃ t, compareLogical a b len s = .next t ∧
      (ShowsLogical t.psw.cc a b ∧ t.psw.LOC = s.psw.LOC + len ∧ RegisterFrame [] s t) := by
  refine ⟨_, rfl, ⟨?_, ?_⟩, rfl, (RegisterFrame.refl [] s).flags rfl rfl rfl rfl rfl ⟨rfl, rfl, rfl, rfl, rfl⟩⟩
  · simp [State.setLogicalCC, subN]
  · have h := subN_value a b false
    rw [show (a - b - BitVec.ofNat n (false.toNat)) = a - b by simp] at h
    exact h ▸ showsSign_of rfl rfl

theorem compareAlgebraic_spec {n : Nat} (a b : BitVec n) (len : Half) (s : State) :
    ∃ t, compareAlgebraic a b len s = .next t ∧
      (ShowsOrder t.psw.cc a b ∧ t.psw.LOC = s.psw.LOC + len ∧ RegisterFrame [] s t) := by
  refine ⟨_, rfl, ⟨?_, ?_, ?_⟩, rfl, (RegisterFrame.refl [] s).flags rfl rfl rfl rfl rfl ⟨rfl, rfl, rfl, rfl, rfl⟩⟩ <;>
    simp [State.setAlgebraicCC]

theorem setShiftCC_shows {w : Nat} (s : State) (r : ShiftResult w) (n : Nat) :
    ShowsShift (s.setShiftCC r n).psw.cc r.value n r.last := by
  unfold State.setShiftCC
  split_ifs with h
  · exact ⟨fun h' => absurd h h', rfl, showsSign_of rfl rfl⟩
  · exact ⟨fun _ => rfl, rfl, showsSign_of rfl rfl⟩

theorem setShiftCC_keeps {w : Nat} (s : State) (r : ShiftResult w) (n : Nat) :
    (s.setShiftCC r n).x = s.x ∧ (s.setShiftCC r n).mem = s.mem ∧
      (s.setShiftCC r n).psw.control = s.psw.control ∧ (s.setShiftCC r n).psw.IB = s.psw.IB ∧
      (s.setShiftCC r n).psw.OB = s.psw.OB ∧ (s.setShiftCC r n).psw.LOC = s.psw.LOC ∧
      SameUnits s (s.setShiftCC r n) := by
  unfold State.setShiftCC
  split_ifs <;> exact ⟨rfl, rfl, rfl, rfl, rfl, rfl, rfl, rfl, rfl, rfl, rfl⟩

theorem RegisterFrame.shiftCC {w : Nat} {rs : List RegNo} {s u : State} (f : RegisterFrame rs s u)
    (r : ShiftResult w) (n : Nat) (len : Half) : RegisterFrame rs s ((u.setShiftCC r n).advance len) := by
  obtain ⟨h1, h2, h3, h4, h5, -, h7⟩ := setShiftCC_keeps u r n
  exact f.flags h1 h2 h3 h4 h5 h7

theorem shiftHalf_spec (f : Half → Nat → ShiftResult 16) (r1 : RegNo) (count : BitVec 4) (len : Half) (s : State) :
    let r := f (s.reg r1) count.toNat
    ∃ t, shiftHalf f r1 count len s = .next t ∧ (t.reg r1 = r.value ∧ ShowsShift t.psw.cc r.value count.toNat r.last ∧
      t.psw.LOC = s.psw.LOC + len ∧ RegisterFrame [r1] s t) := by
  intro r
  have k := setShiftCC_keeps (s.setReg r1 r.value) r count.toNat
  refine ⟨_, rfl, ?_, setShiftCC_shows _ _ _, ?_, (RegisterFrame.setReg r1 _ (by simp) s).shiftCC _ _ _⟩
  · have e : (((s.setReg r1 r.value).setShiftCC r count.toNat).advance len).reg r1 = (s.setReg r1 r.value).reg r1 := by
      simp only [State.reg, State.advance_x, k.1]
    exact e.trans (State.reg_setReg_same _ _ _)
  · simp only [State.advance_LOC]; exact congrArg (· + len) k.2.2.2.2.2.1

theorem shiftFull_spec (f : Full → Nat → ShiftResult 32) (r1 : RegNo) (operand : Half) (s : State) (h : EvenReg r1) :
    let n := (operand.extractLsb' 0 5).toNat
    let r := f (s.pair r1) n
    ∃ t, shiftFull f r1 operand s = .next t ∧ (t.pair r1 = r.value ∧ ShowsShift t.psw.cc r.value n r.last ∧
      t.psw.LOC = s.psw.LOC + 4 ∧ RegisterFrame [r1, r1 + 1] s t) := by
  intro n r
  have k := setShiftCC_keeps (s.setPair r1 r.value) r n
  refine ⟨_, requireR1Even_even h _, ?_, setShiftCC_shows _ _ _, ?_,
    (RegisterFrame.setPair r1 _ (by simp) (by simp) s).shiftCC _ _ _⟩
  · have e : (((s.setPair r1 r.value).setShiftCC r n).advance 4).pair r1 = (s.setPair r1 r.value).pair r1 := by
      simp only [State.pair, State.reg, State.advance_x, k.1]
    exact e.trans (State.pair_setPair_same _ _ _)
  · simp only [State.advance_LOC]; exact congrArg (· + 4) k.2.2.2.2.2.1

theorem shiftDouble_spec (f : Dbl → Nat → ShiftResult 64) (r1 : RegNo) (operand : Half) (s : State) (h : QuadReg r1) :
    let n := (operand.extractLsb' 0 6).toNat
    let r := f (s.quad r1) n
    ∃ t, shiftDouble f r1 operand s = .next t ∧ (t.quad r1 = r.value ∧ ShowsShift t.psw.cc r.value n r.last ∧
      t.psw.LOC = s.psw.LOC + 4 ∧ RegisterFrame [r1, r1 + 1, r1 + 2, r1 + 3] s t) := by
  intro n r
  have k := setShiftCC_keeps (s.setQuad r1 r.value) r n
  refine ⟨_, requireQuad_quad h _, ?_, setShiftCC_shows _ _ _, ?_,
    (RegisterFrame.setQuad r1 _ (by simp) (by simp) (by simp) (by simp) s).shiftCC _ _ _⟩
  · have e : (((s.setQuad r1 r.value).setShiftCC r n).advance 4).quad r1 = (s.setQuad r1 r.value).quad r1 := by
      simp only [State.quad, State.pair, State.reg, State.advance_x, k.1]
    exact e.trans (State.quad_setQuad_same _ _ _)
  · simp only [State.advance_LOC]; exact congrArg (· + 4) k.2.2.2.2.2.1

theorem rotateFull_spec (f : Full → Nat → Full) (r1 : RegNo) (operand : Half) (s : State) (h : EvenReg r1) :
    let r := f (s.pair r1) (operand.extractLsb' 0 5).toNat
    ∃ t, rotateFull f r1 operand s = .next t ∧ (t.pair r1 = r ∧ t.psw.cc.C = false ∧ t.psw.cc.V = false ∧
      ShowsSign t.psw.cc r ∧ t.psw.LOC = s.psw.LOC + 4 ∧ RegisterFrame [r1, r1 + 1] s t) := by
  intro r
  exact ⟨_, requireR1Even_even h _, by simp [r], rfl, rfl, showsSign_of rfl rfl, rfl,
    (RegisterFrame.setPair r1 _ (by simp) (by simp) s).flags rfl rfl rfl rfl rfl ⟨rfl, rfl, rfl, rfl, rfl⟩⟩

theorem branchTo_spec (taken : Bool) (target len : Half) (s : State) : ∃ t, branchTo taken target len s = .next t ∧
    (t.psw.LOC = (if taken then target else s.psw.LOC + len) ∧ t.psw.cc = s.psw.cc ∧ RegisterFrame [] s t) := by
  cases taken <;> exact ⟨_, rfl, rfl, rfl, (RegisterFrame.refl [] s).flags rfl rfl rfl rfl rfl ⟨rfl, rfl, rfl, rfl, rfl⟩⟩

/-- The mask selects the flags bit by bit (45_branch.md rule R260). -/
theorem condition_selected (s : State) (m1 : RegNo) : s.condition m1 = Selected s.psw.cc m1 := by
  unfold State.condition Selected CC.bits
  obtain ⟨C, V, G, L⟩ := s.psw.cc
  revert m1; cases C <;> cases V <;> cases G <;> cases L <;> decide

end Sys2Proof.Machine
end

