-- ==== Sys2Proof/Laws/Float.lean ====
section
/-! SUPPORT. The laws of floating-point numbers and what the shared floating-point operations do, said once. -/

namespace Sys2Proof.Machine

/-! ## Words -/

@[simp] theorem State.floatReg_setFloatReg (s : State) (r : RegNo) (v : Full) : (s.setFloatReg r v).floatReg r = v := by
  simp [State.floatReg, State.setFloatReg]

theorem State.setFloatReg_frame (s : State) (r : RegNo) (v : Full) : FloatFrame r s (s.setFloatReg r v) :=
  StoreFrame.setFull s 0 (floatAddress r) v

/-- A field of a field is a field. -/
theorem extract_extract {w : Nat} (v : BitVec w) (a b c d : Nat) (h : c + d ≤ b) :
    (v.extractLsb' a b).extractLsb' c d = v.extractLsb' (a + c) d := by
  apply BitVec.eq_of_getLsbD_eq
  intro i hi
  simp [hi, show c + i < b by omega, Nat.add_assoc]

/-- `unpack` takes back what `pack` puts together (46_floating_point.md rule R280). -/
theorem unpack_pack (neg : Bool) (e : Int) (f : Nat) (h1 : -64 ≤ e) (h2 : e ≤ 63) (hf : f < 2 ^ 24) :
    unpackFloat (packFloat neg e f) = ⟨neg, e, f⟩ := by
  have hs : (packFloat neg e f).extractLsb' 31 1 = BitVec.ofBool neg := by
    have := append_high (BitVec.ofBool neg ++ BitVec.ofInt 7 (e + 64)) (BitVec.ofNat 24 f)
    have h2 := append_high (BitVec.ofBool neg) (BitVec.ofInt 7 (e + 64))
    rw [← h2, ← this, extract_extract _ _ _ _ _ (by omega)]
    rfl
  have he : (packFloat neg e f).extractLsb' 24 7 = BitVec.ofInt 7 (e + 64) := by
    have := append_high (BitVec.ofBool neg ++ BitVec.ofInt 7 (e + 64)) (BitVec.ofNat 24 f)
    have h2 := append_low (BitVec.ofBool neg) (BitVec.ofInt 7 (e + 64))
    rw [← h2, ← this, extract_extract _ _ _ _ _ (by omega)]
    rfl
  have hl : (packFloat neg e f).extractLsb' 0 24 = BitVec.ofNat 24 f := append_low _ _
  have hm : (packFloat neg e f).msb = neg := by
    have : ((packFloat neg e f).extractLsb' 31 1).getLsbD 0 = (packFloat neg e f).getLsbD 31 := by
      simp
    rw [BitVec.msb_eq_getLsbD_last, ← this, hs]
    cases neg <;> rfl
  simp only [unpackFloat, hm, he, hl, BitVec.toNat_ofNat, Nat.mod_eq_of_lt hf]
  congr 1
  have : (BitVec.ofInt 7 (e + 64)).toNat = (e + 64).toNat := by
    rw [BitVec.toNat_ofInt]; omega
  rw [this]; omega

/-- The fraction of a word is a 24-bit number. -/
theorem unpack_frac_lt (w : Full) : (unpackFloat w).frac < 2 ^ 24 := (w.extractLsb' 0 24).isLt

/-- The true exponent of a word is in range. -/
theorem unpack_exp_range (w : Full) : -64 ≤ (unpackFloat w).exp ∧ (unpackFloat w).exp ≤ 63 := by
  have := (w.extractLsb' 24 7).isLt
  simp only [unpackFloat]; omega

/-- The first digit of the fraction. -/
theorem first_digit (w : Full) : (w.extractLsb' 20 4).toNat = (unpackFloat w).frac / 2 ^ 20 := by
  simp only [unpackFloat, BitVec.extractLsb'_toNat, Nat.shiftRight_eq_div_pow, Nat.pow_zero, Nat.div_one]
  omega

/-- A normalized word is true zero or has a fraction of six digits (46_floating_point.md rule R280). -/
theorem isNormalized_iff (w : Full) : isNormalized w = true ↔ w = 0 ∨ 2 ^ 20 ≤ (unpackFloat w).frac := by
  simp only [isNormalized, Bool.or_eq_true, decide_eq_true_eq]
  have h := first_digit w
  have : w.extractLsb' 20 4 ≠ 0 ↔ 2 ^ 20 ≤ (unpackFloat w).frac := by
    rw [Ne, ← BitVec.toNat_inj, h]; simp [Nat.div_eq_zero_iff]
  rw [this]

/-! ## Normalizing -/

/-- Normalizing shifts left by `k` digits, at most `n`, and stops at a fraction whose first digit is not zero or after
`n`. -/
theorem normalizeFloat_spec (n : Nat) (e : Int) (f : Nat) : ∃ k ≤ n,
    normalizeFloat n e f = (e - k, f * 16 ^ k) ∧ (∀ j < k, f * 16 ^ j < 2 ^ 20) ∧ (k < n → 2 ^ 20 ≤ f * 16 ^ k) := by
  induction n generalizing e f with
  | zero => exact ⟨0, le_refl _, by simp [normalizeFloat], by simp, by simp⟩
  | succ n ih =>
    by_cases h : f < 2 ^ 20
    · obtain ⟨k, hk, he, hj, hs⟩ := ih (e - 1) (f * 16)
      refine ⟨k + 1, by omega, ?_, fun j hj' => ?_, fun hk' => ?_⟩
      · simp only [normalizeFloat, h, if_true, he, Prod.mk.injEq]
        exact ⟨by push_cast; omega, by rw [pow_succ]; ring⟩
      · cases j with
        | zero => simpa using h
        | succ j => have := hj j (by omega); rw [pow_succ]; rw [mul_assoc, mul_comm 16] at this; exact this
      · have := hs (by omega); rw [pow_succ]; rw [mul_assoc, mul_comm 16] at this; exact this
    · exact ⟨0, by omega, by simp only [normalizeFloat, if_neg h]; simp, by simp, fun _ => by simpa using Nat.le_of_not_lt h⟩

/-- A fraction that is not zero becomes normalized within six shifts. -/
theorem normalizeFloat_frac {e : Int} {f : Nat} (h0 : f ≠ 0) (h1 : f < 2 ^ 24) :
    2 ^ 20 ≤ (normalizeFloat 6 e f).2 ∧ (normalizeFloat 6 e f).2 < 2 ^ 24 := by
  obtain ⟨k, hk, he, hj, hs⟩ := normalizeFloat_spec 6 e f
  rw [he]
  refine ⟨?_, ?_⟩
  · by_cases h : k < 6
    · exact hs h
    · obtain rfl : k = 6 := by omega
      simp only; omega
  · cases k with
    | zero => simpa using h1
    | succ j => have := hj j (by omega); simp only [pow_succ, ← Nat.mul_assoc] at this ⊢; omega

/-! ## Rounding -/

/-- The reference rounds to within half a unit. -/
theorem roundNearest_near (n d : Nat) (h : 0 < d) :
    2 * n < 2 * d * roundNearest n d + d ∧ 2 * d * roundNearest n d ≤ 2 * n + d := by
  have h1 := Nat.div_add_mod (2 * n + d) (2 * d)
  have h2 := Nat.mod_lt (2 * n + d) (show 0 < 2 * d by omega)
  unfold roundNearest
  omega

/-- A number that is rounded either way stays within a unit. -/
theorem roundTo_near (up : Bool) (n d : Nat) (h : 0 < d) :
    n < d * roundTo up n d + d ∧ d * roundTo up n d < n + d := by
  have h1 := Nat.div_add_mod n d
  have h2 := Nat.mod_lt n h
  unfold roundTo
  split_ifs <;> constructor <;> try rw [Nat.mul_add]
  all_goals omega

/-! ## Completing -/

/-- What the register holds after the result of an outcome is written. -/
theorem State.setFloatResult_frame (s : State) (r1 : RegNo) (r : FloatResult) : FloatFrame r1 s (s.setFloatResult r1 r) := by
  unfold State.setFloatResult
  split
  · exact s.setFloatReg_frame r1 _
  · exact ⟨fun _ _ => rfl, fun _ _ _ => rfl, ⟨rfl, rfl, rfl⟩, ⟨rfl, rfl, rfl, rfl, rfl⟩⟩

@[simp] theorem State.setFloatCC_floatReg (s : State) (c : FloatChart) (r : FloatResult) (q : RegNo) :
    (s.setFloatCC c r).floatReg q = s.floatReg q := rfl

@[simp] theorem State.advance_floatReg (s : State) (len : Half) (q : RegNo) :
    (s.advance len).floatReg q = s.floatReg q := rfl

@[simp] theorem State.setFloatResult_psw (s : State) (r1 : RegNo) (r : FloatResult) :
    (s.setFloatResult r1 r).psw = s.psw := by unfold State.setFloatResult; split <;> rfl

@[simp] theorem State.setFloatResult_draws (s : State) (r1 : RegNo) (r : FloatResult) :
    (s.setFloatResult r1 r).draws = s.draws := by unfold State.setFloatResult; split <;> rfl

theorem State.setFloatResult_undisturbed (s : State) (r1 : RegNo) (r : FloatResult) :
    Undisturbed (s.setFloatResult r1 r) ↔ Undisturbed s := by
  unfold State.setFloatResult
  split
  · exact State.setFull_undisturbed s 0 (floatAddress r1) _
  · rfl

/-- The fault, taken or not, whole. -/
theorem State.floatTrap_spec {s : State} (h : Undisturbed s) (fault : Bool) :
    ((fault && s.psw.control.FP) = true →
      ∃ u, s.floatTrap fault = .next u ∧ Exchanges s u 0x0028 0x002c s.psw.LOC) ∧
    ((fault && s.psw.control.FP) = false → s.floatTrap fault = .next s) := by
  constructor <;> intro hf <;> simp only [State.floatTrap, hf, if_true, Bool.false_eq_true, if_false]
  exact s.raise_spec h .floatFault _

/-- What V, G and L are after an outcome. -/
theorem State.floatComplete_flags (s : State) (chart : FloatChart) (r : FloatResult) :
    (s.setFloatCC chart r).psw.cc = ⟨s.floatC chart r, r.isFault, s.floatG chart r, s.floatL chart r⟩ := rfl

/-- An instruction that completes with outcome `r`, whole. -/
theorem floatComplete_spec (i : Instr) (chart : FloatChart) (r1 : RegNo) (r : FloatResult) (len : Half) {s : State}
    (hu : Undisturbed s) (h : exec i s = floatComplete chart r1 r len s) : FloatCompletes i s r1 len r.isFault fun t =>
      FloatOutcome s t r1 r ∧ t.psw.cc.C = s.floatC chart r ∧ t.psw.cc.V = r.isFault ∧
        t.psw.cc.G = s.floatG chart r ∧ t.psw.cc.L = s.floatL chart r := by
  have hd : ∀ k, (s.setFloatResult r1 r).undef k = s.undef k := by intro k; simp [State.undef]
  have hC : (s.setFloatResult r1 r).floatC chart r = s.floatC chart r := by cases chart <;> simp [State.floatC, hd]
  have hG : (s.setFloatResult r1 r).floatG chart r = s.floatG chart r := by
    cases r <;> cases chart <;> simp [State.floatG, hd]
  have hL : (s.setFloatResult r1 r).floatL chart r = s.floatL chart r := by
    cases r <;> cases chart <;> simp [State.floatL, hd]
  refine ⟨((s.setFloatResult r1 r).setFloatCC chart r).advance len, ⟨?_, ?_, ?_, ?_, ?_⟩, ?_, ?_, ?_⟩
  · cases r <;>
      simp only [FloatOutcome, FlagsVGL, State.advance_floatReg, State.setFloatCC_floatReg, State.advance_cc,
        State.floatComplete_flags] <;> simp [State.setFloatResult, FloatResult.register, FloatResult.isFault,
        State.floatG, State.floatL]
  · simp only [State.advance_cc, State.floatComplete_flags, hC]
  · simp only [State.advance_cc, State.floatComplete_flags]
  · simp only [State.advance_cc, State.floatComplete_flags, hG]
  · simp only [State.advance_cc, State.floatComplete_flags, hL]
  · simp
  · exact StoreFrame.flags (s.setFloatResult_frame r1 r) (by simp) (by simp) (by simp) (by simp) (by simp) (by simp [SameUnits])
  · rw [floatComplete, hu.writeFloatResult] at h
    have ht : Undisturbed (((s.setFloatResult r1 r).setFloatCC chart r).advance len) := by
      simpa [State.setFloatResult_undisturbed] using hu
    obtain ⟨taken, not⟩ := State.floatTrap_spec ht r.isFault
    simp only [State.advance_control, State.setFloatCC_control, State.setFloatResult_psw] at taken not
    split
    · next hf =>
      obtain ⟨u, h1, h2⟩ := taken hf
      exact ⟨u, h.trans h1, by simpa using h2⟩
    · next hf => exact h.trans (not (by simpa using hf))

/-- Arithmetic on an operand that is not normalized, whole. -/
theorem floatUndefined_spec (i : Instr) (r1 : RegNo) (len : Half) {s : State} (hu : Undisturbed s)
    (h : exec i s = floatUndefined r1 len s) : FloatOpen i s r1 len := by
  rw [floatUndefined, hu.writeFloat] at h
  exact ⟨_, h, by simp, StoreFrame.flags (s.setFloatReg_frame r1 (s.undefFull 0)) (by simp) (by simp) (by simp) (by simp)
    (by simp) (by simp [SameUnits])⟩

end Sys2Proof.Machine
end

