-- ==== Sys2Proof/Laws/Lists.lean ====
section
/-! SUPPORT. What the shared operations of the list instructions do, said once. -/

namespace Sys2Proof.Machine

theorem ListHeader.before_eq (h : ListHeader) (i : Byte) : h.before i = slotBefore h.n i := rfl

theorem ListHeader.after_eq (h : ListHeader) {i : Byte} (hi : i.toNat < h.n.toNat) : h.after i = slotAfter h.n i := by
  unfold ListHeader.after slotAfter
  by_cases e : i = h.n - 1
  · have h1 : h.n - 1 + 1 = h.n := by bv_omega
    have h2 : (h.n - 1).ult h.n = true := by simp only [BitVec.ult, decide_eq_true_eq]; bv_omega
    rw [e, h1, h2, if_pos rfl, if_pos rfl]
  · have h1 : (h.n - 1).ult (i + 1) = false := by
      have : i.toNat ≠ (h.n - 1).toNat := fun x => e (BitVec.eq_of_toNat_eq x)
      simp only [BitVec.ult, decide_eq_false_iff_not]
      bv_omega
    rw [h1, if_neg (by simp), if_neg e]

theorem slotAddress_eq (a : Half) (i : Byte) : slotAddress a i = a + 4 + 2 * i.setWidth 16 := by
  unfold slotAddress
  congr 1
  apply BitVec.eq_of_toNat_eq
  have := i.isLt
  simp
  omega

/-- A header in range is one the rules are stated for. -/
theorem ListAt.consistent {s : State} {a : Half} {n used top bot : Byte} (h : ListAt s a n used top bot) :
    (ListHeader.mk n used top bot).consistent = true := by
  simp only [ListHeader.consistent, BitVec.ule, BitVec.ult, h.tallyFits, decide_true, Bool.true_and, Bool.or_eq_true,
    decide_eq_true_eq, Bool.and_eq_true]
  by_cases hn : n = 0
  · exact .inl hn
  · exact .inr (h.pointersFit hn)

/-- A list operand with a header in range, by its top. -/
theorem Undisturbed.withListTop {s : State} (hu : Undisturbed s) {x2 : RegNo} {a2 : Half} {n used top bot : Byte}
    (h : ListAt s (s.ea x2 a2) n used top bot) (k : Half → ListHeader → State → Outcome) :
    s.withListTop x2 a2 k = k (s.ea x2 a2) ⟨n, used, top, bot⟩ s := by
  simp only [State.withListTop, hu.readByte, h.slots, h.tally, h.topPointer, h.bottomPointer, h.consistent,
    requireEven_even h.even, require_true]

/-- A list operand with a header in range, by its bottom. -/
theorem Undisturbed.withListBottom {s : State} (hu : Undisturbed s) {x2 : RegNo} {a2 : Half} {n used top bot : Byte}
    (h : ListAt s (s.ea x2 a2) n used top bot) (k : Half → ListHeader → State → Outcome) :
    s.withListBottom x2 a2 k = k (s.ea x2 a2) ⟨n, used, top, bot⟩ s := by
  simp only [State.withListBottom, hu.readByte, h.slots, h.tally, h.topPointer, h.bottomPointer, h.consistent,
    requireEven_even h.even, require_true]

/-- How far from the header a byte of a slot is. -/
theorem slot_offset (a : Half) (k : Byte) {j : Half} (hj : j.toNat < 2) :
    (a + 4 + 2 * k.setWidth 16 + j - a).toNat = 4 + 2 * k.toNat + j.toNat := by
  have := k.isLt
  have := a.isLt
  simp
  omega

/-- No byte of a slot is a byte of the header. -/
theorem slot_ne_header (a : Half) (k : Byte) {j m : Half} (hj : j.toNat < 2) (hm : m.toNat < 4) :
    a + m ≠ a + 4 + 2 * k.setWidth 16 + j := by
  intro e
  have h := slot_offset a k hj
  rw [← e] at h
  have : a + m - a = m := by rw [BitVec.add_comm, BitVec.add_sub_cancel]
  rw [this] at h
  omega

end Sys2Proof.Machine
end

