-- ==== Sys2Proof/Laws/Machine.lean ====
section
/-! SUPPORT. What a step does in each of its cases, said once. -/

namespace Sys2Proof.Machine

/-! ## The boundary -/

theorem State.arrived_nil {s : State} (h : s.env.inputs = []) : s.arrived = s := by simp [State.arrived, h]

theorem State.boundary_nil {s : State} (h : s.env.inputs = []) : s.boundary = Boundary.quiet := by
  simp [State.boundary, h]

theorem State.arrived_cons {s : State} {b : Boundary} {rest : List Boundary} (h : s.env.inputs = b :: rest) :
    s.arrived = { s with
      mem := agentWrites s.install s.mem b.dma
      env := { s.env with inputs := rest, queueEntry := b.queueEntry } } := by simp [State.arrived, h]

theorem State.boundary_cons {s : State} {b : Boundary} {rest : List Boundary} (h : s.env.inputs = b :: rest) :
    s.boundary = b := by simp [State.boundary, h]

@[simp] theorem State.arrived_x (s : State) : s.arrived.x = s.x := by unfold State.arrived; split <;> rfl
@[simp] theorem State.arrived_reg (s : State) (r : RegNo) : s.arrived.reg r = s.reg r := by simp [State.reg]
@[simp] theorem State.arrived_psw (s : State) : s.arrived.psw = s.psw := by unfold State.arrived; split <;> rfl
@[simp] theorem State.arrived_cpr (s : State) : s.arrived.cpr = s.cpr := by unfold State.arrived; split <;> rfl
@[simp] theorem State.arrived_power (s : State) : s.arrived.power = s.power := by unfold State.arrived; split <;> rfl
@[simp] theorem State.arrived_runMode (s : State) : s.arrived.runMode = s.runMode := by
  unfold State.arrived; split <;> rfl
@[simp] theorem State.arrived_install (s : State) : s.arrived.install = s.install := by
  unfold State.arrived; split <;> rfl
@[simp] theorem State.arrived_transfers (s : State) : s.arrived.env.transfers = s.env.transfers := by
  unfold State.arrived; split <;> rfl
@[simp] theorem State.arrived_undisturbed (s : State) : Undisturbed s.arrived ↔ Undisturbed s :=
  ⟨fun h => ⟨by simpa using h.1, by simpa using h.2⟩, fun h => ⟨by simpa using h.1, by simpa using h.2⟩⟩
@[simp] theorem State.arrived_acks (s : State) : s.arrived.env.acks = s.env.acks := by
  unfold State.arrived; split <;> rfl

/-- With no DMA write in the input, memory is as it was. -/
theorem State.arrived_mem {s : State} (h : s.boundary.dma = []) : s.arrived.mem = s.mem := by
  unfold State.arrived
  split
  · rfl
  · next b rest e =>
    rw [State.boundary_cons e] at h
    simp [agentWrites, h]

/-! ## The cases of a step -/

theorem step_outside {s : State} {o : Outcome} (h : s.arrived.outside s.boundary = some o) : step s = o := by
  simp only [step, h]

theorem step_inside {s : State} (h : s.arrived.outside s.boundary = none) : step s = s.arrived.fetch exec := by
  simp only [step, h]

/-! ## The fetch -/

set_option maxRecDepth 20000 in
theorem decodeOp_isSome_all (r1 r2 : RegNo) (v w : Half) : (List.range 256).all
    (fun n => (decodeOp (BitVec.ofNat 8 n) r1 r2 v).isSome == (decodeOp (BitVec.ofNat 8 n) r1 r2 w).isSome) = true := rfl

/-- Whether an operation code is assigned is a matter of the operation code alone. -/
theorem decodeOp_isSome (op : Byte) (r1 r2 : RegNo) (v w : Half) :
    (decodeOp op r1 r2 v).isSome = (decodeOp op r1 r2 w).isSome := by
  simpa using List.all_eq_true.1 (decodeOp_isSome_all r1 r2 v w) op.toNat (List.mem_range.2 op.isLt)

theorem halfBytes_halfAt (s : State) (b : BankNo) (a : Half) :
    halfBytes (s.halfAt b a) = [s.byteAt b a, s.byteAt b (a + 1)] := by
  simp only [halfBytes, highByte, lowByte, State.halfAt, append_high, append_low]

/-- The four bytes at the location counter, decoded (30_encoding.md rule R106). -/
theorem Undisturbed.fetch {s : State} (h : Undisturbed s) (he : EvenAddress s.psw.LOC) (k : Instr → State → Outcome) :
    s.fetch k =
      match decodeWith s.install.codes s.fetchBytes with
      | .error _ => s.illegal
      | .ok (i, _) => k i s := by
  have he' : s.psw.LOC.getLsbD 0 = false := he
  simp only [State.fetch, he', Bool.false_eq_true, if_false, h.readHalf, halfBytes_halfAt, State.fetchBytes,
    List.cons_append, List.nil_append, decodeWith]
  rw [BitVec.add_assoc, show (2 : Half) + 1 = 3 by rfl]
  generalize s.byteAt s.psw.IB s.psw.LOC = op
  generalize s.byteAt s.psw.IB (s.psw.LOC + 1) = b
  cases mapCode s.install.codes op with
  | none => rfl
  | some op' =>
    simp only [decode]
    by_cases hl : opLength op' = 2
    · simp only [hl, if_true, decodeFields]
      cases decodeOp op' (b.extractLsb' 4 4) (b.extractLsb' 0 4) 0 <;> rfl
    · simp only [hl, if_false, decodeFields]
      generalize (s.byteAt s.psw.IB (s.psw.LOC + 2) ++ s.byteAt s.psw.IB (s.psw.LOC + 3) : Half) = w
      have := decodeOp_isSome op' (b.extractLsb' 4 4) (b.extractLsb' 0 4) ((0 : Byte) ++ (0 : Byte)) w
      cases h0 : decodeOp op' (b.extractLsb' 4 4) (b.extractLsb' 0 4) ((0 : Byte) ++ (0 : Byte)) <;>
        cases h1 : decodeOp op' (b.extractLsb' 4 4) (b.extractLsb' 0 4) w <;> simp_all

/-! ## A launch -/

/-- What the image of a launch leaves in a byte (70_reset_and_hazards.md rule R451). -/
theorem imageMemory_read (image : List (BitVec 18 × Byte)) (p : Nat) :
    Memory.read (imageMemory image) p = imageByte image p := by
  induction image using List.reverseRecOn with
  | nil => rfl
  | append_singleton es e ih =>
    simp only [imageMemory, List.foldl_append, List.foldl_cons, List.foldl_nil, Memory.read_write]
    simp only [imageByte, List.reverse_append, List.reverse_singleton, List.singleton_append, List.find?_cons]
    by_cases h : e.1.toNat = p
    · simp [h]
    · simp only [h, decide_false, if_false]
      exact ih

/-! ## The cases of the boundary -/

/-- Operational, not shut down and with no condition to take: the wait state or an instruction. -/
theorem State.outside_nothing {s : State} {b : Boundary} (hp : s.power = .operational) (hb : b.power ≠ .shutdown)
    (hc : s.conditions b = []) : s.outside b = if s.psw.control.WT then some (.next s) else none := by
  simp only [State.outside, hp, hb, if_false, hc, chosen, List.length_nil, Nat.mod_zero]
  rfl

/-- Operational, not shut down and with one condition: it is taken. -/
theorem State.outside_one {s : State} {b : Boundary} {c : Condition} (hp : s.power = .operational)
    (hb : b.power ≠ .shutdown) (hc : s.conditions b = [c]) : s.outside b = some (s.take c) := by
  simp [State.outside, hp, hb, hc, chosen, Nat.mod_one]

theorem State.conditions_quiet (s : State) : s.conditions Boundary.quiet = [] := rfl

theorem step_quiet {s : State} (h : Quiet s) : step s = s.fetch exec := by
  obtain ⟨hp, hw, hi⟩ := h
  have : s.arrived.outside s.boundary = none := by
    rw [State.arrived_nil hi, State.boundary_nil hi,
      State.outside_nothing hp (by decide) s.conditions_quiet, hw]; rfl
  rw [step_inside this, State.arrived_nil hi]

/-! ## The power sequences -/

@[simp] theorem State.powered_reg (s : State) (r : RegNo) : s.powered.reg r = s.reg r := rfl
@[simp] theorem State.powered_psw (s : State) : s.powered.psw = s.psw := rfl
@[simp] theorem State.powered_mem (s : State) : s.powered.mem = s.mem := rfl
@[simp] theorem State.powered_byteAt (s : State) (b : BankNo) (a : Half) : s.powered.byteAt b a = s.byteAt b a := rfl
@[simp] theorem State.powered_runMode (s : State) : s.powered.runMode = s.runMode := rfl
@[simp] theorem State.powered_power (s : State) : s.powered.power = .operational := rfl
@[simp] theorem State.powered_undisturbed (s : State) : Undisturbed s.powered ↔ Undisturbed s :=
  ⟨fun h => ⟨h.1, h.2⟩, fun h => ⟨h.1, h.2⟩⟩

/-- The state that the power-down sequence leaves (60_exceptions.md rule R437). -/
theorem State.powerDown_spec {s : State} (h : Undisturbed s) (he : EvenAddress (s.halfAt 0 0x0022)) :
    s.powerDown = .next
      { (s.storedMultiple 0 16 0 (s.halfAt 0 0x0022)).setFull 0 0x0024 s.psw.full with power := .standBy } := by
  have hs : Undisturbed (s.storedMultiple 0 16 0 (s.halfAt 0 0x0022)) := by
    obtain ⟨-, -, ⟨-, he, -, -, hi⟩, -⟩ := State.storedMultiple_keeps 0 16 s 0 (s.halfAt 0 0x0022)
    exact ⟨by rw [he]; exact h.1, by rw [hi]; exact h.2⟩
  rw [State.powerDown, h.readHalf, requireEven_even he, h.storeMultiple, hs.writeFull]

/-- What a restart with memory valid reloads before it resumes (rule R436). -/
theorem State.restart_spec {s : State} (h : Undisturbed s) (he : EvenAddress (s.halfAt 0 0x0022)) :
    s.restart = ((s.loadedMultiple 0 16 0 (s.halfAt 0 0x0022)).loadedPsw 0 0x0024).powered.resume := by
  have hs : Undisturbed (s.loadedMultiple 0 16 0 (s.halfAt 0 0x0022)) := by
    obtain ⟨-, -, -, -, -, he, -, -, hi⟩ := State.loadedMultiple_spec 0 16 s 0 (s.halfAt 0 0x0022) rfl
    exact ⟨by rw [he]; exact h.1, by rw [hi]; exact h.2⟩
  rw [State.restart, h.readHalf, requireEven_even he, h.loadMultiple, hs.loadPsw]

/-- With MM set a restart ends in the Machine Malfunction exchange (rules R410, R436). -/
theorem State.resume_malfunction {s : State} (h : Undisturbed s) (hm : s.psw.control.MM = true) :
    s.resume = .next (s.exchanged .machineMalfunction s.psw.LOC) := by rw [State.resume, if_pos hm, h.raise]

/-- With MM reset, in the Run mode, a restart changes nothing more (rule R436). -/
theorem State.resume_run {s : State} (hm : s.psw.control.MM = false) (hr : s.runMode = true) :
    s.resume = .next s := by simp [State.resume, require, hm, hr]

end Sys2Proof.Machine
end

