-- ==== Sys2Proof/Laws/PerInstr.lean ====
section
/-! SUPPORT. Statements made for every instruction, one lemma per constructor. -/

namespace Sys2Proof.Laws

/-- The encoding has as many bytes as its operation code says (30_encoding.md rule R100). -/
def EncodedLength.Statement (i : Instr) : Prop :=
  ∀ bytes, encode i = some bytes → bytes.length = opLength (bytes.headD 0)

/-- The two-byte formats. -/
theorem encodedLength_short {i : Instr} {op : Byte} {r1 r2 : RegNo} (h : encode i = some [op, r1 ++ r2])
    (hl : opLength op = 2) : EncodedLength.Statement i := by
  intro bytes hb
  obtain rfl := Option.some.inj (h.symm.trans hb)
  exact hl.symm

/-- The four-byte formats. -/
theorem encodedLength_long {i : Instr} {op b c d : Byte} (h : encode i = some [op, b, c, d]) (hl : opLength op = 4) :
    EncodedLength.Statement i := by
  intro bytes hb
  obtain rfl := Option.some.inj (h.symm.trans hb)
  exact hl.symm

/-- No encoding: the nine trigonometric instructions (rule R105). -/
theorem encodedLength_none {i : Instr} (h : encode i = none) : EncodedLength.Statement i := by
  intro bytes hb
  rw [h] at hb
  exact absurd hb (by simp)

theorem EncodedLength.balr (r1 r2 : RegNo) : EncodedLength.Statement (.balr r1 r2) := encodedLength_short rfl rfl
theorem EncodedLength.btcr (m1 r2 : RegNo) : EncodedLength.Statement (.btcr m1 r2) := encodedLength_short rfl rfl
theorem EncodedLength.bfcr (m1 r2 : RegNo) : EncodedLength.Statement (.bfcr m1 r2) := encodedLength_short rfl rfl
theorem EncodedLength.nhr (r1 r2 : RegNo) : EncodedLength.Statement (.nhr r1 r2) := encodedLength_short rfl rfl
theorem EncodedLength.clhr (r1 r2 : RegNo) : EncodedLength.Statement (.clhr r1 r2) := encodedLength_short rfl rfl
theorem EncodedLength.ohr (r1 r2 : RegNo) : EncodedLength.Statement (.ohr r1 r2) := encodedLength_short rfl rfl
theorem EncodedLength.xhr (r1 r2 : RegNo) : EncodedLength.Statement (.xhr r1 r2) := encodedLength_short rfl rfl
theorem EncodedLength.lhr (r1 r2 : RegNo) : EncodedLength.Statement (.lhr r1 r2) := encodedLength_short rfl rfl
theorem EncodedLength.chr (r1 r2 : RegNo) : EncodedLength.Statement (.chr r1 r2) := encodedLength_short rfl rfl
theorem EncodedLength.ahr (r1 r2 : RegNo) : EncodedLength.Statement (.ahr r1 r2) := encodedLength_short rfl rfl
theorem EncodedLength.shr (r1 r2 : RegNo) : EncodedLength.Statement (.shr r1 r2) := encodedLength_short rfl rfl
theorem EncodedLength.mhr (r1 r2 : RegNo) : EncodedLength.Statement (.mhr r1 r2) := encodedLength_short rfl rfl
theorem EncodedLength.dhr (r1 r2 : RegNo) : EncodedLength.Statement (.dhr r1 r2) := encodedLength_short rfl rfl
theorem EncodedLength.achr (r1 r2 : RegNo) : EncodedLength.Statement (.achr r1 r2) := encodedLength_short rfl rfl
theorem EncodedLength.schr (r1 r2 : RegNo) : EncodedLength.Statement (.schr r1 r2) := encodedLength_short rfl rfl
theorem EncodedLength.lcnhr (r1 r2 : RegNo) : EncodedLength.Statement (.lcnhr r1 r2) := encodedLength_short rfl rfl
theorem EncodedLength.lavr (r1 r2 : RegNo) : EncodedLength.Statement (.lavr r1 r2) := encodedLength_short rfl rfl
theorem EncodedLength.lchr (r1 r2 : RegNo) : EncodedLength.Statement (.lchr r1 r2) := encodedLength_short rfl rfl
theorem EncodedLength.cldpr (r1 r2 : RegNo) : EncodedLength.Statement (.cldpr r1 r2) := encodedLength_short rfl rfl
theorem EncodedLength.ldpr (r1 r2 : RegNo) : EncodedLength.Statement (.ldpr r1 r2) := encodedLength_short rfl rfl
theorem EncodedLength.cdpr (r1 r2 : RegNo) : EncodedLength.Statement (.cdpr r1 r2) := encodedLength_short rfl rfl
theorem EncodedLength.adpr (r1 r2 : RegNo) : EncodedLength.Statement (.adpr r1 r2) := encodedLength_short rfl rfl
theorem EncodedLength.sdpr (r1 r2 : RegNo) : EncodedLength.Statement (.sdpr r1 r2) := encodedLength_short rfl rfl
theorem EncodedLength.mdpr (r1 r2 : RegNo) : EncodedLength.Statement (.mdpr r1 r2) := encodedLength_short rfl rfl
theorem EncodedLength.ddpr (r1 r2 : RegNo) : EncodedLength.Statement (.ddpr r1 r2) := encodedLength_short rfl rfl
theorem EncodedLength.btbs (m1 n : RegNo) : EncodedLength.Statement (.btbs m1 n) := encodedLength_short rfl rfl
theorem EncodedLength.btfs (m1 n : RegNo) : EncodedLength.Statement (.btfs m1 n) := encodedLength_short rfl rfl
theorem EncodedLength.bfbs (m1 n : RegNo) : EncodedLength.Statement (.bfbs m1 n) := encodedLength_short rfl rfl
theorem EncodedLength.bffs (m1 n : RegNo) : EncodedLength.Statement (.bffs m1 n) := encodedLength_short rfl rfl
theorem EncodedLength.lis (r1 n : RegNo) : EncodedLength.Statement (.lis r1 n) := encodedLength_short rfl rfl
theorem EncodedLength.lcs (r1 n : RegNo) : EncodedLength.Statement (.lcs r1 n) := encodedLength_short rfl rfl
theorem EncodedLength.ais (r1 n : RegNo) : EncodedLength.Statement (.ais r1 n) := encodedLength_short rfl rfl
theorem EncodedLength.sis (r1 n : RegNo) : EncodedLength.Statement (.sis r1 n) := encodedLength_short rfl rfl
theorem EncodedLength.ler (r1 r2 : RegNo) : EncodedLength.Statement (.ler r1 r2) := encodedLength_short rfl rfl
theorem EncodedLength.cer (r1 r2 : RegNo) : EncodedLength.Statement (.cer r1 r2) := encodedLength_short rfl rfl
theorem EncodedLength.aer (r1 r2 : RegNo) : EncodedLength.Statement (.aer r1 r2) := encodedLength_short rfl rfl
theorem EncodedLength.ser (r1 r2 : RegNo) : EncodedLength.Statement (.ser r1 r2) := encodedLength_short rfl rfl
theorem EncodedLength.mer (r1 r2 : RegNo) : EncodedLength.Statement (.mer r1 r2) := encodedLength_short rfl rfl
theorem EncodedLength.der (r1 r2 : RegNo) : EncodedLength.Statement (.der r1 r2) := encodedLength_short rfl rfl
theorem EncodedLength.epor (r1 r2 : RegNo) : EncodedLength.Statement (.epor r1 r2) := encodedLength_short rfl rfl
theorem EncodedLength.eppr (r1 r2 : RegNo) : EncodedLength.Statement (.eppr r1 r2) := encodedLength_short rfl rfl
theorem EncodedLength.lfr (r1 r2 : RegNo) : EncodedLength.Statement (.lfr r1 r2) := encodedLength_short rfl rfl
theorem EncodedLength.cfr (r1 r2 : RegNo) : EncodedLength.Statement (.cfr r1 r2) := encodedLength_short rfl rfl
theorem EncodedLength.afr (r1 r2 : RegNo) : EncodedLength.Statement (.afr r1 r2) := encodedLength_short rfl rfl
theorem EncodedLength.sfr (r1 r2 : RegNo) : EncodedLength.Statement (.sfr r1 r2) := encodedLength_short rfl rfl
theorem EncodedLength.mfr (r1 r2 : RegNo) : EncodedLength.Statement (.mfr r1 r2) := encodedLength_short rfl rfl
theorem EncodedLength.dfr (r1 r2 : RegNo) : EncodedLength.Statement (.dfr r1 r2) := encodedLength_short rfl rfl
theorem EncodedLength.sth (r1 x2 : RegNo) (a2 : Half) : EncodedLength.Statement (.sth r1 x2 a2) := encodedLength_long rfl rfl
theorem EncodedLength.bal (r1 x2 : RegNo) (a2 : Half) : EncodedLength.Statement (.bal r1 x2 a2) := encodedLength_long rfl rfl
theorem EncodedLength.btc (m1 x2 : RegNo) (a2 : Half) : EncodedLength.Statement (.btc m1 x2 a2) := encodedLength_long rfl rfl
theorem EncodedLength.bfc (m1 x2 : RegNo) (a2 : Half) : EncodedLength.Statement (.bfc m1 x2 a2) := encodedLength_long rfl rfl
theorem EncodedLength.nh (r1 x2 : RegNo) (a2 : Half) : EncodedLength.Statement (.nh r1 x2 a2) := encodedLength_long rfl rfl
theorem EncodedLength.clh (r1 x2 : RegNo) (a2 : Half) : EncodedLength.Statement (.clh r1 x2 a2) := encodedLength_long rfl rfl
theorem EncodedLength.oh (r1 x2 : RegNo) (a2 : Half) : EncodedLength.Statement (.oh r1 x2 a2) := encodedLength_long rfl rfl
theorem EncodedLength.xh (r1 x2 : RegNo) (a2 : Half) : EncodedLength.Statement (.xh r1 x2 a2) := encodedLength_long rfl rfl
theorem EncodedLength.lh (r1 x2 : RegNo) (a2 : Half) : EncodedLength.Statement (.lh r1 x2 a2) := encodedLength_long rfl rfl
theorem EncodedLength.ch (r1 x2 : RegNo) (a2 : Half) : EncodedLength.Statement (.ch r1 x2 a2) := encodedLength_long rfl rfl
theorem EncodedLength.ah (r1 x2 : RegNo) (a2 : Half) : EncodedLength.Statement (.ah r1 x2 a2) := encodedLength_long rfl rfl
theorem EncodedLength.sh (r1 x2 : RegNo) (a2 : Half) : EncodedLength.Statement (.sh r1 x2 a2) := encodedLength_long rfl rfl
theorem EncodedLength.mh (r1 x2 : RegNo) (a2 : Half) : EncodedLength.Statement (.mh r1 x2 a2) := encodedLength_long rfl rfl
theorem EncodedLength.dh (r1 x2 : RegNo) (a2 : Half) : EncodedLength.Statement (.dh r1 x2 a2) := encodedLength_long rfl rfl
theorem EncodedLength.ach (r1 x2 : RegNo) (a2 : Half) : EncodedLength.Statement (.ach r1 x2 a2) := encodedLength_long rfl rfl
theorem EncodedLength.sch (r1 x2 : RegNo) (a2 : Half) : EncodedLength.Statement (.sch r1 x2 a2) := encodedLength_long rfl rfl
theorem EncodedLength.stdp (r1 x2 : RegNo) (a2 : Half) : EncodedLength.Statement (.stdp r1 x2 a2) := encodedLength_long rfl rfl
theorem EncodedLength.lcnh (r1 x2 : RegNo) (a2 : Half) : EncodedLength.Statement (.lcnh r1 x2 a2) := encodedLength_long rfl rfl
theorem EncodedLength.lav (r1 x2 : RegNo) (a2 : Half) : EncodedLength.Statement (.lav r1 x2 a2) := encodedLength_long rfl rfl
theorem EncodedLength.lch (r1 x2 : RegNo) (a2 : Half) : EncodedLength.Statement (.lch r1 x2 a2) := encodedLength_long rfl rfl
theorem EncodedLength.cldp (r1 x2 : RegNo) (a2 : Half) : EncodedLength.Statement (.cldp r1 x2 a2) := encodedLength_long rfl rfl
theorem EncodedLength.ldp (r1 x2 : RegNo) (a2 : Half) : EncodedLength.Statement (.ldp r1 x2 a2) := encodedLength_long rfl rfl
theorem EncodedLength.cdp (r1 x2 : RegNo) (a2 : Half) : EncodedLength.Statement (.cdp r1 x2 a2) := encodedLength_long rfl rfl
theorem EncodedLength.adp (r1 x2 : RegNo) (a2 : Half) : EncodedLength.Statement (.adp r1 x2 a2) := encodedLength_long rfl rfl
theorem EncodedLength.sdp (r1 x2 : RegNo) (a2 : Half) : EncodedLength.Statement (.sdp r1 x2 a2) := encodedLength_long rfl rfl
theorem EncodedLength.mdp (r1 x2 : RegNo) (a2 : Half) : EncodedLength.Statement (.mdp r1 x2 a2) := encodedLength_long rfl rfl
theorem EncodedLength.ddp (r1 x2 : RegNo) (a2 : Half) : EncodedLength.Statement (.ddp r1 x2 a2) := encodedLength_long rfl rfl
theorem EncodedLength.ste (r1 x2 : RegNo) (a2 : Half) : EncodedLength.Statement (.ste r1 x2 a2) := encodedLength_long rfl rfl
theorem EncodedLength.ahm (r1 x2 : RegNo) (a2 : Half) : EncodedLength.Statement (.ahm r1 x2 a2) := encodedLength_long rfl rfl
theorem EncodedLength.atl (r1 x2 : RegNo) (a2 : Half) : EncodedLength.Statement (.atl r1 x2 a2) := encodedLength_long rfl rfl
theorem EncodedLength.abl (r1 x2 : RegNo) (a2 : Half) : EncodedLength.Statement (.abl r1 x2 a2) := encodedLength_long rfl rfl
theorem EncodedLength.rtl (r1 x2 : RegNo) (a2 : Half) : EncodedLength.Statement (.rtl r1 x2 a2) := encodedLength_long rfl rfl
theorem EncodedLength.rbl (r1 x2 : RegNo) (a2 : Half) : EncodedLength.Statement (.rbl r1 x2 a2) := encodedLength_long rfl rfl
theorem EncodedLength.le (r1 x2 : RegNo) (a2 : Half) : EncodedLength.Statement (.le r1 x2 a2) := encodedLength_long rfl rfl
theorem EncodedLength.ce (r1 x2 : RegNo) (a2 : Half) : EncodedLength.Statement (.ce r1 x2 a2) := encodedLength_long rfl rfl
theorem EncodedLength.ae (r1 x2 : RegNo) (a2 : Half) : EncodedLength.Statement (.ae r1 x2 a2) := encodedLength_long rfl rfl
theorem EncodedLength.se (r1 x2 : RegNo) (a2 : Half) : EncodedLength.Statement (.se r1 x2 a2) := encodedLength_long rfl rfl
theorem EncodedLength.me (r1 x2 : RegNo) (a2 : Half) : EncodedLength.Statement (.me r1 x2 a2) := encodedLength_long rfl rfl
theorem EncodedLength.de (r1 x2 : RegNo) (a2 : Half) : EncodedLength.Statement (.de r1 x2 a2) := encodedLength_long rfl rfl
theorem EncodedLength.stf (r1 x2 : RegNo) (a2 : Half) : EncodedLength.Statement (.stf r1 x2 a2) := encodedLength_long rfl rfl
theorem EncodedLength.lh0 (r1 x2 : RegNo) (a2 : Half) : EncodedLength.Statement (.lh0 r1 x2 a2) := encodedLength_long rfl rfl
theorem EncodedLength.lh1 (r1 x2 : RegNo) (a2 : Half) : EncodedLength.Statement (.lh1 r1 x2 a2) := encodedLength_long rfl rfl
theorem EncodedLength.lh2 (r1 x2 : RegNo) (a2 : Half) : EncodedLength.Statement (.lh2 r1 x2 a2) := encodedLength_long rfl rfl
theorem EncodedLength.lh3 (r1 x2 : RegNo) (a2 : Half) : EncodedLength.Statement (.lh3 r1 x2 a2) := encodedLength_long rfl rfl
theorem EncodedLength.lf (r1 x2 : RegNo) (a2 : Half) : EncodedLength.Statement (.lf r1 x2 a2) := encodedLength_long rfl rfl
theorem EncodedLength.cf (r1 x2 : RegNo) (a2 : Half) : EncodedLength.Statement (.cf r1 x2 a2) := encodedLength_long rfl rfl
theorem EncodedLength.af (r1 x2 : RegNo) (a2 : Half) : EncodedLength.Statement (.af r1 x2 a2) := encodedLength_long rfl rfl
theorem EncodedLength.sf (r1 x2 : RegNo) (a2 : Half) : EncodedLength.Statement (.sf r1 x2 a2) := encodedLength_long rfl rfl
theorem EncodedLength.mf (r1 x2 : RegNo) (a2 : Half) : EncodedLength.Statement (.mf r1 x2 a2) := encodedLength_long rfl rfl
theorem EncodedLength.df (r1 x2 : RegNo) (a2 : Half) : EncodedLength.Statement (.df r1 x2 a2) := encodedLength_long rfl rfl
theorem EncodedLength.srls (r1 n : RegNo) : EncodedLength.Statement (.srls r1 n) := encodedLength_short rfl rfl
theorem EncodedLength.slls (r1 n : RegNo) : EncodedLength.Statement (.slls r1 n) := encodedLength_short rfl rfl
theorem EncodedLength.stbr (r1 r2 : RegNo) : EncodedLength.Statement (.stbr r1 r2) := encodedLength_short rfl rfl
theorem EncodedLength.lbr (r1 r2 : RegNo) : EncodedLength.Statement (.lbr r1 r2) := encodedLength_short rfl rfl
theorem EncodedLength.exbr (r1 r2 : RegNo) : EncodedLength.Statement (.exbr r1 r2) := encodedLength_short rfl rfl
theorem EncodedLength.epsr (r1 r2 : RegNo) : EncodedLength.Statement (.epsr r1 r2) := encodedLength_short rfl rfl
theorem EncodedLength.wbr (r1 r2 : RegNo) : EncodedLength.Statement (.wbr r1 r2) := encodedLength_short rfl rfl
theorem EncodedLength.rbr (r1 r2 : RegNo) : EncodedLength.Statement (.rbr r1 r2) := encodedLength_short rfl rfl
theorem EncodedLength.whr (r1 r2 : RegNo) : EncodedLength.Statement (.whr r1 r2) := encodedLength_short rfl rfl
theorem EncodedLength.rhr (r1 r2 : RegNo) : EncodedLength.Statement (.rhr r1 r2) := encodedLength_short rfl rfl
theorem EncodedLength.wdr (r1 r2 : RegNo) : EncodedLength.Statement (.wdr r1 r2) := encodedLength_short rfl rfl
theorem EncodedLength.rdr (r1 r2 : RegNo) : EncodedLength.Statement (.rdr r1 r2) := encodedLength_short rfl rfl
theorem EncodedLength.mhur (r1 r2 : RegNo) : EncodedLength.Statement (.mhur r1 r2) := encodedLength_short rfl rfl
theorem EncodedLength.ssr (r1 r2 : RegNo) : EncodedLength.Statement (.ssr r1 r2) := encodedLength_short rfl rfl
theorem EncodedLength.ocr (r1 r2 : RegNo) : EncodedLength.Statement (.ocr r1 r2) := encodedLength_short rfl rfl
theorem EncodedLength.air (r1 r2 : RegNo) : EncodedLength.Statement (.air r1 r2) := encodedLength_short rfl rfl
theorem EncodedLength.bxh (r1 x2 : RegNo) (a2 : Half) : EncodedLength.Statement (.bxh r1 x2 a2) := encodedLength_long rfl rfl
theorem EncodedLength.bxle (r1 x2 : RegNo) (a2 : Half) : EncodedLength.Statement (.bxle r1 x2 a2) := encodedLength_long rfl rfl
theorem EncodedLength.lpsw (r1 x2 : RegNo) (a2 : Half) : EncodedLength.Statement (.lpsw r1 x2 a2) := encodedLength_long rfl rfl
theorem EncodedLength.thi (r1 x2 : RegNo) (i2 : Half) : EncodedLength.Statement (.thi r1 x2 i2) := encodedLength_long rfl rfl
theorem EncodedLength.nhi (r1 x2 : RegNo) (i2 : Half) : EncodedLength.Statement (.nhi r1 x2 i2) := encodedLength_long rfl rfl
theorem EncodedLength.clhi (r1 x2 : RegNo) (i2 : Half) : EncodedLength.Statement (.clhi r1 x2 i2) := encodedLength_long rfl rfl
theorem EncodedLength.ohi (r1 x2 : RegNo) (i2 : Half) : EncodedLength.Statement (.ohi r1 x2 i2) := encodedLength_long rfl rfl
theorem EncodedLength.xhi (r1 x2 : RegNo) (i2 : Half) : EncodedLength.Statement (.xhi r1 x2 i2) := encodedLength_long rfl rfl
theorem EncodedLength.lhi (r1 x2 : RegNo) (i2 : Half) : EncodedLength.Statement (.lhi r1 x2 i2) := encodedLength_long rfl rfl
theorem EncodedLength.chi (r1 x2 : RegNo) (i2 : Half) : EncodedLength.Statement (.chi r1 x2 i2) := encodedLength_long rfl rfl
theorem EncodedLength.ahi (r1 x2 : RegNo) (i2 : Half) : EncodedLength.Statement (.ahi r1 x2 i2) := encodedLength_long rfl rfl
theorem EncodedLength.shi (r1 x2 : RegNo) (i2 : Half) : EncodedLength.Statement (.shi r1 x2 i2) := encodedLength_long rfl rfl
theorem EncodedLength.srhl (r1 x2 : RegNo) (i2 : Half) : EncodedLength.Statement (.srhl r1 x2 i2) := encodedLength_long rfl rfl
theorem EncodedLength.slhl (r1 x2 : RegNo) (i2 : Half) : EncodedLength.Statement (.slhl r1 x2 i2) := encodedLength_long rfl rfl
theorem EncodedLength.srha (r1 x2 : RegNo) (i2 : Half) : EncodedLength.Statement (.srha r1 x2 i2) := encodedLength_long rfl rfl
theorem EncodedLength.slha (r1 x2 : RegNo) (i2 : Half) : EncodedLength.Statement (.slha r1 x2 i2) := encodedLength_long rfl rfl
theorem EncodedLength.stm (r1 x2 : RegNo) (a2 : Half) : EncodedLength.Statement (.stm r1 x2 a2) := encodedLength_long rfl rfl
theorem EncodedLength.lm (r1 x2 : RegNo) (a2 : Half) : EncodedLength.Statement (.lm r1 x2 a2) := encodedLength_long rfl rfl
theorem EncodedLength.stb (r1 x2 : RegNo) (a2 : Half) : EncodedLength.Statement (.stb r1 x2 a2) := encodedLength_long rfl rfl
theorem EncodedLength.lb (r1 x2 : RegNo) (a2 : Half) : EncodedLength.Statement (.lb r1 x2 a2) := encodedLength_long rfl rfl
theorem EncodedLength.clb (r1 x2 : RegNo) (a2 : Half) : EncodedLength.Statement (.clb r1 x2 a2) := encodedLength_long rfl rfl
theorem EncodedLength.al (r1 x2 : RegNo) (a2 : Half) : EncodedLength.Statement (.al r1 x2 a2) := encodedLength_long rfl rfl
theorem EncodedLength.wb (r1 x2 : RegNo) (a2 : Half) : EncodedLength.Statement (.wb r1 x2 a2) := encodedLength_long rfl rfl
theorem EncodedLength.rb (r1 x2 : RegNo) (a2 : Half) : EncodedLength.Statement (.rb r1 x2 a2) := encodedLength_long rfl rfl
theorem EncodedLength.wh (r1 x2 : RegNo) (a2 : Half) : EncodedLength.Statement (.wh r1 x2 a2) := encodedLength_long rfl rfl
theorem EncodedLength.rh (r1 x2 : RegNo) (a2 : Half) : EncodedLength.Statement (.rh r1 x2 a2) := encodedLength_long rfl rfl
theorem EncodedLength.wd (r1 x2 : RegNo) (a2 : Half) : EncodedLength.Statement (.wd r1 x2 a2) := encodedLength_long rfl rfl
theorem EncodedLength.rd (r1 x2 : RegNo) (a2 : Half) : EncodedLength.Statement (.rd r1 x2 a2) := encodedLength_long rfl rfl
theorem EncodedLength.mhu (r1 x2 : RegNo) (a2 : Half) : EncodedLength.Statement (.mhu r1 x2 a2) := encodedLength_long rfl rfl
theorem EncodedLength.ss (r1 x2 : RegNo) (a2 : Half) : EncodedLength.Statement (.ss r1 x2 a2) := encodedLength_long rfl rfl
theorem EncodedLength.oc (r1 x2 : RegNo) (a2 : Half) : EncodedLength.Statement (.oc r1 x2 a2) := encodedLength_long rfl rfl
theorem EncodedLength.ai (r1 x2 : RegNo) (a2 : Half) : EncodedLength.Statement (.ai r1 x2 a2) := encodedLength_long rfl rfl
theorem EncodedLength.svc (r1 x2 : RegNo) (i2 : Half) : EncodedLength.Statement (.svc r1 x2 i2) := encodedLength_long rfl rfl
theorem EncodedLength.sint (r1 x2 : RegNo) (i2 : Half) : EncodedLength.Statement (.sint r1 x2 i2) := encodedLength_long rfl rfl
theorem EncodedLength.resb (r1 x2 : RegNo) (i2 : Half) : EncodedLength.Statement (.resb r1 x2 i2) := encodedLength_long rfl rfl
theorem EncodedLength.sesb (r1 x2 : RegNo) (i2 : Half) : EncodedLength.Statement (.sesb r1 x2 i2) := encodedLength_long rfl rfl
theorem EncodedLength.srqa (r1 x2 : RegNo) (i2 : Half) : EncodedLength.Statement (.srqa r1 x2 i2) := encodedLength_long rfl rfl
theorem EncodedLength.slql (r1 x2 : RegNo) (i2 : Half) : EncodedLength.Statement (.slql r1 x2 i2) := encodedLength_long rfl rfl
theorem EncodedLength.srql (r1 x2 : RegNo) (i2 : Half) : EncodedLength.Statement (.srql r1 x2 i2) := encodedLength_long rfl rfl
theorem EncodedLength.slqa (r1 x2 : RegNo) (i2 : Half) : EncodedLength.Statement (.slqa r1 x2 i2) := encodedLength_long rfl rfl
theorem EncodedLength.rrl (r1 x2 : RegNo) (i2 : Half) : EncodedLength.Statement (.rrl r1 x2 i2) := encodedLength_long rfl rfl
theorem EncodedLength.rll (r1 x2 : RegNo) (i2 : Half) : EncodedLength.Statement (.rll r1 x2 i2) := encodedLength_long rfl rfl
theorem EncodedLength.srl (r1 x2 : RegNo) (i2 : Half) : EncodedLength.Statement (.srl r1 x2 i2) := encodedLength_long rfl rfl
theorem EncodedLength.sll (r1 x2 : RegNo) (i2 : Half) : EncodedLength.Statement (.sll r1 x2 i2) := encodedLength_long rfl rfl
theorem EncodedLength.sra (r1 x2 : RegNo) (i2 : Half) : EncodedLength.Statement (.sra r1 x2 i2) := encodedLength_long rfl rfl
theorem EncodedLength.sla (r1 x2 : RegNo) (i2 : Half) : EncodedLength.Statement (.sla r1 x2 i2) := encodedLength_long rfl rfl
theorem EncodedLength.sth0 (r1 x2 : RegNo) (a2 : Half) : EncodedLength.Statement (.sth0 r1 x2 a2) := encodedLength_long rfl rfl
theorem EncodedLength.sth1 (r1 x2 : RegNo) (a2 : Half) : EncodedLength.Statement (.sth1 r1 x2 a2) := encodedLength_long rfl rfl
theorem EncodedLength.sth2 (r1 x2 : RegNo) (a2 : Half) : EncodedLength.Statement (.sth2 r1 x2 a2) := encodedLength_long rfl rfl
theorem EncodedLength.sth3 (r1 x2 : RegNo) (a2 : Half) : EncodedLength.Statement (.sth3 r1 x2 a2) := encodedLength_long rfl rfl
theorem EncodedLength.ecpr (r1 r2 : RegNo) : EncodedLength.Statement (.ecpr r1 r2) := encodedLength_none rfl
theorem EncodedLength.cosr (r1 r2 : RegNo) : EncodedLength.Statement (.cosr r1 r2) := encodedLength_none rfl
theorem EncodedLength.cos (r1 x2 : RegNo) (a2 : Half) : EncodedLength.Statement (.cos r1 x2 a2) := encodedLength_none rfl
theorem EncodedLength.asnr (r1 r2 : RegNo) : EncodedLength.Statement (.asnr r1 r2) := encodedLength_none rfl
theorem EncodedLength.asn (r1 x2 : RegNo) (a2 : Half) : EncodedLength.Statement (.asn r1 x2 a2) := encodedLength_none rfl
theorem EncodedLength.atnr (r1 r2 : RegNo) : EncodedLength.Statement (.atnr r1 r2) := encodedLength_none rfl
theorem EncodedLength.atn (r1 x2 : RegNo) (a2 : Half) : EncodedLength.Statement (.atn r1 x2 a2) := encodedLength_none rfl
theorem EncodedLength.sqdr (r1 r2 : RegNo) : EncodedLength.Statement (.sqdr r1 r2) := encodedLength_none rfl
theorem EncodedLength.sqd (r1 x2 : RegNo) (a2 : Half) : EncodedLength.Statement (.sqd r1 x2 a2) := encodedLength_none rfl

end Sys2Proof.Laws
end

