-- ==== Sys2Proof/Laws/Trig.lean ====
section
/-! SUPPORT. What the bounds of Table VI-3 give, said once. -/

namespace Sys2Proof.Machine

theorem cosineError_range (p : Cpr) : 1 ≤ cosineError p ∧ cosineError p ≤ 0x8000 := by cases p <;> decide

theorem arcTangentError_range (p : Cpr) : 1 ≤ arcTangentError p := by cases p <;> decide

theorem arcSineError_range (p : Cpr) : 1 ≤ arcSineError p := by cases p <;> decide

theorem differenceError_range (p : Cpr) : 1 ≤ differenceError p ∧ differenceError p ≤ 0x8000 := by cases p <;> decide

/-! ## Roots -/

/-- The bit-by-bit root is the integer part of the root. -/
theorem rootBelow_spec (q n r : Nat) (h : r * r ≤ q) (k : q < (r + 2 ^ n) * (r + 2 ^ n)) :
    rootBelow q n r * rootBelow q n r ≤ q ∧ q < (rootBelow q n r + 1) * (rootBelow q n r + 1) := by
  induction n generalizing r with
  | zero => simpa [rootBelow] using ⟨h, k⟩
  | succ n ih =>
    rw [rootBelow]
    split_ifs with c
    · exact ih _ c (by rw [show r + 2 ^ n + 2 ^ n = r + 2 ^ (n + 1) by rw [pow_succ]; omega]; exact k)
    · exact ih _ h (by omega)

theorem toInt_of_small {m : Int} (h : outsideSigned 32 m = false) : (BitVec.ofInt 32 m).toInt = m := by
  simp only [outsideSigned, Bool.or_eq_false_iff, decide_eq_false_iff_not] at h
  rw [BitVec.toInt_ofInt, Int.bmod_def]
  norm_num at h ⊢
  omega

/-- A bounded root is within its bound, where the root of `q` is a number of 32 bits or above it by no more than the
bound. -/
theorem boundedRoot_within (m : Int) (q e : Nat) (he : 1 ≤ e) (hq : q ≤ (0x7fffffff + e) * (0x7fffffff + e))
    (hl : e ≤ 0x8000) : RootWithin (boundedRoot m q e) q e := by
  unfold boundedRoot RootWithin
  split_ifs with c
  · simp only [Bool.and_eq_true, Bool.not_eq_true', withinRoot, Bool.or_eq_true, decide_eq_true_eq] at c
    obtain ⟨⟨⟨c1, c2⟩, c3⟩, c4⟩ := c
    rw [toInt_of_small c4]
    exact ⟨c1, by rw [sq]; exact c2, c3.imp id (fun x => by rw [sq]; exact x)⟩
  · have hbig : (0x7fffffff + e) * (0x7fffffff + e) < (0 + 2 ^ 33) * (0 + 2 ^ 33) := by
      apply Nat.mul_self_lt_mul_self; omega
    obtain ⟨h1, h2⟩ := rootBelow_spec q 33 0 (by simp) (by omega)
    generalize rootBelow q 33 0 = r at h1 h2
    have hm : (BitVec.ofNat 32 (min r 0x7fffffff)).toInt = (min r 0x7fffffff : Nat) := by
      have : min r 0x7fffffff ≤ 0x7fffffff := Nat.min_le_right _ _
      rw [BitVec.toInt_eq_toNat_cond, BitVec.toNat_ofNat]
      omega
    rw [hm]
    have hr : min r 0x7fffffff * min r 0x7fffffff ≤ q :=
      le_trans (Nat.mul_le_mul (Nat.min_le_left _ _) (Nat.min_le_left _ _)) h1
    have hu : q ≤ (min r 0x7fffffff + e) * (min r 0x7fffffff + e) := by
      rcases Nat.le_total r 0x7fffffff with x | x
      · rw [Nat.min_eq_left x]
        exact le_trans (Nat.le_of_lt h2) (Nat.mul_le_mul (by omega) (by omega))
      · rw [Nat.min_eq_right x]; exact hq
    generalize min r 0x7fffffff = k at hr hu
    refine ⟨by positivity, by rw [sq]; exact_mod_cast hu, ?_⟩
    by_cases hk : k ≤ e
    · exact .inl (by exact_mod_cast hk)
    · right
      obtain ⟨d, rfl⟩ := Nat.exists_eq_add_of_lt (not_le.1 hk)
      have : d + 1 ≤ e + d + 1 := by omega
      calc ((e + d + 1 : Nat) - (e : Int)) ^ 2 = (((d + 1) * (d + 1) : Nat) : Int) := by push_cast; ring
        _ ≤ ((e + d + 1) * (e + d + 1) : Nat) := by exact_mod_cast Nat.mul_le_mul this this
        _ ≤ q := by exact_mod_cast hr

/-! ## Sines and cosines -/

theorem seriesFrom_le (q n k : Nat) : seriesFrom q n k ≤ 2 ^ 96 := by
  cases n with
  | zero => exact le_refl _
  | succ n => exact Nat.sub_le _ _

theorem quarterCosine_le (r : Nat) : quarterCosine r ≤ 2 ^ 96 := seriesFrom_le _ _ _

theorem quarterSine_le (r : Nat) : quarterSine r ≤ 2 ^ 96 := Nat.min_le_right _ _

/-- A cosine is at most one. -/
theorem fixedCosine_range (a : Int) : |fixedCosine a| ≤ 2 ^ 96 := by
  have key : ∀ x : Nat, x ≤ 2 ^ 96 → |(x : Int)| ≤ 2 ^ 96 ∧ |-(x : Int)| ≤ 2 ^ 96 := fun x h => by
    rw [abs_neg, Nat.abs_cast]
    exact ⟨by exact_mod_cast h, by exact_mod_cast h⟩
  unfold fixedCosine
  dsimp only
  split
  · exact (key _ (quarterCosine_le _)).1
  · exact (key _ (quarterSine_le _)).2
  · exact (key _ (quarterCosine_le _)).2
  · exact (key _ (quarterSine_le _)).1

theorem fixedSine_range (a : Int) : |fixedSine a| ≤ 2 ^ 96 := fixedCosine_range _

/-- A number in the range of the fixed scalars is a number of 32 bits. -/
theorem toInt_ofInt_unit {k : Int} (h1 : -(2 ^ 30) ≤ k) (h2 : k ≤ 2 ^ 30) : (BitVec.ofInt 32 k).toInt = k := by
  apply toInt_of_small
  simp only [outsideSigned, Bool.or_eq_false_iff, decide_eq_false_iff_not]
  norm_num at *
  omega

/-- A bounded fixed scalar is one, and within its bound. -/
theorem boundedFixed_within (m v : Int) (e : Nat) (he : 1 ≤ e) (hv : |v| ≤ 2 ^ 96) :
    FixedWithin (boundedFixed m v e) v e ∧ InUnitRange (boundedFixed m v e) := by
  obtain ⟨v1, v2⟩ := abs_le.1 hv
  have e2 : (1 : Int) ≤ e := by exact_mod_cast he
  unfold boundedFixed FixedWithin InUnitRange
  split_ifs with c
  · simp only [withinFixed, inUnitRange, Bool.and_eq_true, decide_eq_true_eq] at c
    obtain ⟨⟨c1, c2⟩, c3, c4⟩ := c
    rw [toInt_ofInt_unit c3 c4, abs_le]
    exact ⟨⟨by linarith, by linarith⟩, c3, c4⟩
  · have h1 := Int.ediv_mul_le (v + 2 ^ 65) (show (2 ^ 66 : Int) ≠ 0 by norm_num)
    have h2 := Int.lt_ediv_add_one_mul_self (v + 2 ^ 65) (show (0 : Int) < 2 ^ 66 by norm_num)
    generalize (v + 2 ^ 65) / 2 ^ 66 = k at h1 h2
    have k1 : -(2 ^ 30) ≤ k := by norm_num at *; omega
    have k2 : k ≤ 2 ^ 30 := by norm_num at *; omega
    rw [toInt_ofInt_unit k1 k2, abs_le]
    exact ⟨⟨by linarith, by linarith⟩, k1, k2⟩

/-! ## Angles -/

/-- Bit by bit to an angle that a test admits next to one that it does not. -/
theorem angleBelow_spec (p : Int → Bool) (n : Nat) (a : Int) (h : p a = true) (k : p (a + 2 ^ n) = false) :
    p (angleBelow p n a) = true ∧ p (angleBelow p n a + 1) = false ∧ a ≤ angleBelow p n a := by
  induction n generalizing a with
  | zero => exact ⟨h, by simpa [angleBelow] using k, le_refl _⟩
  | succ n ih =>
    have hp : (0 : Int) < 2 ^ n := by positivity
    rw [angleBelow]
    split_ifs with c
    · obtain ⟨i1, i2, i3⟩ := ih _ c (by rw [add_assoc, ← two_mul, ← pow_succ']; exact k)
      exact ⟨i1, i2, by omega⟩
    · exact ih _ h (by simpa using c)

theorem wholeAngle_spec {p : Int → Bool} (ends : p (-(2 ^ 30)) = true ∧ p (-(2 ^ 30) + 2 ^ 32) = false) :
    p (wholeAngle p) = true ∧ p (wholeAngle p + 1) = false ∧ -(2 ^ 30) ≤ wholeAngle p :=
  angleBelow_spec p 32 _ ends.1 ends.2

theorem sineAtMost_ends (y z : Int) :
    sineAtMost y z (-(2 ^ 30)) = true ∧ sineAtMost y z (-(2 ^ 30) + 2 ^ 32) = false := by
  constructor <;> norm_num [sineAtMost]

theorem tangentAtMost_ends (y x : Int) :
    tangentAtMost y x (-(2 ^ 30)) = true ∧ tangentAtMost y x (-(2 ^ 30) + 2 ^ 32) = false := by
  constructor <;> norm_num [tangentAtMost]

/-- An angle that passes for a result is within the bound of the tests. -/
theorem withinAngle_spec {atMost atLeast : Int → Bool} (ends : atMost (-(2 ^ 30)) = true ∧ atMost (-(2 ^ 30) + 2 ^ 32) = false)
    {a : Int} {e : Nat} (h : withinAngle atMost atLeast a e = true) (turn : Int) :
    AngleWithin (BitVec.ofInt 32 (a + turn)) turn atMost atLeast e := by
  obtain ⟨h1, h2, -⟩ := wholeAngle_spec ends
  simp only [withinAngle, Bool.and_eq_true, decide_eq_true_eq] at h
  exact ⟨wholeAngle atMost, a, rfl, h1, h2, h⟩

/-- So is the whole part of the angle itself. -/
theorem wholeAngle_within {atMost : Int → Bool} (atLeast : Int → Bool)
    (ends : atMost (-(2 ^ 30)) = true ∧ atMost (-(2 ^ 30) + 2 ^ 32) = false) {e : Nat} (he : 1 ≤ e) (turn : Int) :
    AngleWithin (BitVec.ofInt 32 (wholeAngle atMost + turn)) turn atMost atLeast e := by
  obtain ⟨h1, h2, -⟩ := wholeAngle_spec ends
  exact ⟨wholeAngle atMost, wholeAngle atMost, rfl, h1, h2, by omega, by split_ifs <;> omega⟩

/-- An arc sine is within its bound, and between -90 and 90 degrees. -/
theorem boundedArcSine_within (a y z : Int) {e : Nat} (he : 1 ≤ e) :
    AngleWithin (boundedArcSine a y z e) 0 (sineAtMost y z) (sineAtLeast y z) e ∧ InUnitRange (boundedArcSine a y z e) := by
  unfold boundedArcSine
  split_ifs with c
  · rw [Bool.and_eq_true] at c
    have r := c.2
    simp only [inUnitRange, Bool.and_eq_true, decide_eq_true_eq] at r
    exact ⟨by simpa using withinAngle_spec (sineAtMost_ends y z) c.1 0, by
      rw [InUnitRange, toInt_ofInt_unit r.1 r.2]; exact r⟩
  · refine ⟨by simpa using wholeAngle_within (sineAtLeast y z) (sineAtMost_ends y z) he 0, ?_⟩
    obtain ⟨h1, -, h3⟩ := wholeAngle_spec (sineAtMost_ends y z)
    have h2 : wholeAngle (sineAtMost y z) ≤ 2 ^ 30 := by
      generalize wholeAngle (sineAtMost y z) = w at h1
      simp only [sineAtMost, Bool.or_eq_true, Bool.and_eq_true, decide_eq_true_eq] at h1
      norm_num at h1 ⊢
      omega
    rw [InUnitRange, toInt_ofInt_unit h3 h2]
    exact ⟨h3, h2⟩

/-- The arc tangent for x = 0 is within its bound of 90 degrees with the sign of y. -/
theorem boundedArcTangent_right (q : Config.Quadrant) (a y : Int) {e : Nat} (he : e < 2 ^ 30) :
    (boundedArcTangent q a y 0 e - (if y < 0 then 0xc0000000 else 0x40000000)).toInt.natAbs ≤ e := by
  have key : ∀ p : Int, p = boundedPrincipal a y 0 e →
      (BitVec.ofInt 32 p - (if y < 0 then 0xc0000000 else 0x40000000)).toInt.natAbs ≤ e := by
    rintro p rfl
    have hr : (if y < 0 then 0xc0000000 else 0x40000000) = BitVec.ofInt 32 (rightAngle y) := by
      unfold rightAngle; split_ifs <;> decide
    rw [hr, sub_eq_add_neg, ← BitVec.ofInt_neg, ← BitVec.ofInt_add]
    have hd : (boundedPrincipal a y 0 e + -rightAngle y).natAbs ≤ e := by
      simp only [boundedPrincipal, if_true]
      split_ifs with c
      · exact c
      · simp
    generalize boundedPrincipal a y 0 e + -rightAngle y = d at hd
    rwa [toInt_of_small (by
      simp only [outsideSigned, Bool.or_eq_false_iff, decide_eq_false_iff_not]; norm_num at *; omega)]
  unfold boundedArcTangent
  cases q <;> exact key _ (by simp)

/-- Elsewhere it is within its bound of the arc tangent, half a turn from the principal value where it is resolved to the
quadrant of a negative x. -/
theorem boundedArcTangent_within (q : Config.Quadrant) (a y : Int) {x : Int} (hx : x ≠ 0) {e : Nat} (he : 1 ≤ e) :
    AngleWithin (boundedArcTangent q a y x e) (if q = .resolved ∧ x < 0 then 2 ^ 31 else 0)
      (tangentAtMost (if x < 0 then -y else y) x.natAbs) (tangentAtLeast (if x < 0 then -y else y) x.natAbs) e := by
  have key : ∀ turn, AngleWithin (BitVec.ofInt 32 (boundedPrincipal a y x e + turn)) turn
      (tangentAtMost (if x < 0 then -y else y) x.natAbs) (tangentAtLeast (if x < 0 then -y else y) x.natAbs) e := by
    intro turn
    rw [boundedPrincipal, if_neg hx]
    dsimp only
    by_cases c : withinAngle (tangentAtMost (if x < 0 then -y else y) x.natAbs)
        (tangentAtLeast (if x < 0 then -y else y) x.natAbs) a e = true
    · rw [if_pos c]; exact withinAngle_spec (tangentAtMost_ends _ _) c turn
    · rw [if_neg c]; exact wholeAngle_within _ (tangentAtMost_ends _ _) he turn
  have zero := key 0
  rw [add_zero] at zero
  unfold boundedArcTangent
  cases q
  · by_cases hx : x < 0
    · rw [if_pos ⟨rfl, hx⟩]; dsimp only; rw [if_pos hx]; exact key _
    · rw [if_neg (fun h => hx h.2)]; dsimp only; rw [if_neg hx]; exact zero
  · exact zero

end Sys2Proof.Machine
end

