-- ==== Sys2Proof/Machine/Assembler.lean ====
section
/-! DEFINITION. How CAL, the assembler, writes the instructions: the operand forms of 30_encoding.md rule R107 and the
extended branch mnemonics of Table 2-4 (rule R108). No step depends on it. -/

namespace Sys2Proof

/-- An operand of a source line (rule R107). -/
inductive SourceOperand where
  /-- A register number, a mask, or the N field written as a number. -/
  | number (n : RegNo)
  /-- `A2 (X2)` or `I2 (X2)`; the index part is omitted where there is no indexing. -/
  | indexed (w : Half) (x2 : Option RegNo)
deriving DecidableEq, Repr

/-- A source line: a mnemonic and its operands. -/
structure SourceLine where
  /-- The mnemonic. -/
  mnemonic : String
  /-- The operands in their order. -/
  operands : List SourceOperand
deriving DecidableEq, Repr

/-- `MNEM R1, R2`, `MNEM R1, N`, `MNEM M1, R2` or `MNEM M1, D`. -/
def sourceShort (mnemonic : String) (r1 r2 : RegNo) : SourceLine := ⟨mnemonic, [.number r1, .number r2]⟩

/-- The second operand of a four-byte instruction. -/
def sourceIndexed (w : Half) (x2 : RegNo) : SourceOperand := .indexed w (if x2 = 0 then none else some x2)

/-- `MNEM R1, A2 (X2)`, `MNEM R1, I2 (X2)` or `MNEM M1, A2 (X2)`. -/
def sourceLong (mnemonic : String) (r1 x2 : RegNo) (w : Half) : SourceLine :=
  ⟨mnemonic, [.number r1, sourceIndexed w x2]⟩

/-- `MNEM A2 (X2)` or `MNEM I2 (X2)`: R1 is omitted where it must be zero. -/
def sourceNoR1 (mnemonic : String) (x2 : RegNo) (w : Half) : SourceLine := ⟨mnemonic, [sourceIndexed w x2]⟩

/-- The source line of an instruction (rule R107). -/
def Instr.source (i : Instr) : SourceLine :=
  match i with
  | .balr r1 r2 => sourceShort "BALR" r1 r2
  | .btcr m1 r2 => sourceShort "BTCR" m1 r2
  | .bfcr m1 r2 => sourceShort "BFCR" m1 r2
  | .nhr r1 r2 => sourceShort "NHR" r1 r2
  | .clhr r1 r2 => sourceShort "CLHR" r1 r2
  | .ohr r1 r2 => sourceShort "OHR" r1 r2
  | .xhr r1 r2 => sourceShort "XHR" r1 r2
  | .lhr r1 r2 => sourceShort "LHR" r1 r2
  | .chr r1 r2 => sourceShort "CHR" r1 r2
  | .ahr r1 r2 => sourceShort "AHR" r1 r2
  | .shr r1 r2 => sourceShort "SHR" r1 r2
  | .mhr r1 r2 => sourceShort "MHR" r1 r2
  | .dhr r1 r2 => sourceShort "DHR" r1 r2
  | .achr r1 r2 => sourceShort "ACHR" r1 r2
  | .schr r1 r2 => sourceShort "SCHR" r1 r2
  | .lcnhr r1 r2 => sourceShort "LCNHR" r1 r2
  | .lavr r1 r2 => sourceShort "LAVR" r1 r2
  | .lchr r1 r2 => sourceShort "LCHR" r1 r2
  | .cldpr r1 r2 => sourceShort "CLDPR" r1 r2
  | .ldpr r1 r2 => sourceShort "LDPR" r1 r2
  | .cdpr r1 r2 => sourceShort "CDPR" r1 r2
  | .adpr r1 r2 => sourceShort "ADPR" r1 r2
  | .sdpr r1 r2 => sourceShort "SDPR" r1 r2
  | .mdpr r1 r2 => sourceShort "MDPR" r1 r2
  | .ddpr r1 r2 => sourceShort "DDPR" r1 r2
  | .btbs m1 n => sourceShort "BTBS" m1 n
  | .btfs m1 n => sourceShort "BTFS" m1 n
  | .bfbs m1 n => sourceShort "BFBS" m1 n
  | .bffs m1 n => sourceShort "BFFS" m1 n
  | .lis r1 n => sourceShort "LIS" r1 n
  | .lcs r1 n => sourceShort "LCS" r1 n
  | .ais r1 n => sourceShort "AIS" r1 n
  | .sis r1 n => sourceShort "SIS" r1 n
  | .ler r1 r2 => sourceShort "LER" r1 r2
  | .cer r1 r2 => sourceShort "CER" r1 r2
  | .aer r1 r2 => sourceShort "AER" r1 r2
  | .ser r1 r2 => sourceShort "SER" r1 r2
  | .mer r1 r2 => sourceShort "MER" r1 r2
  | .der r1 r2 => sourceShort "DER" r1 r2
  | .epor r1 r2 => sourceShort "EPOR" r1 r2
  | .eppr r1 r2 => sourceShort "EPPR" r1 r2
  | .lfr r1 r2 => sourceShort "LFR" r1 r2
  | .cfr r1 r2 => sourceShort "CFR" r1 r2
  | .afr r1 r2 => sourceShort "AFR" r1 r2
  | .sfr r1 r2 => sourceShort "SFR" r1 r2
  | .mfr r1 r2 => sourceShort "MFR" r1 r2
  | .dfr r1 r2 => sourceShort "DFR" r1 r2
  | .sth r1 x2 a2 => sourceLong "STH" r1 x2 a2
  | .bal r1 x2 a2 => sourceLong "BAL" r1 x2 a2
  | .btc m1 x2 a2 => sourceLong "BTC" m1 x2 a2
  | .bfc m1 x2 a2 => sourceLong "BFC" m1 x2 a2
  | .nh r1 x2 a2 => sourceLong "NH" r1 x2 a2
  | .clh r1 x2 a2 => sourceLong "CLH" r1 x2 a2
  | .oh r1 x2 a2 => sourceLong "OH" r1 x2 a2
  | .xh r1 x2 a2 => sourceLong "XH" r1 x2 a2
  | .lh r1 x2 a2 => sourceLong "LH" r1 x2 a2
  | .ch r1 x2 a2 => sourceLong "CH" r1 x2 a2
  | .ah r1 x2 a2 => sourceLong "AH" r1 x2 a2
  | .sh r1 x2 a2 => sourceLong "SH" r1 x2 a2
  | .mh r1 x2 a2 => sourceLong "MH" r1 x2 a2
  | .dh r1 x2 a2 => sourceLong "DH" r1 x2 a2
  | .ach r1 x2 a2 => sourceLong "ACH" r1 x2 a2
  | .sch r1 x2 a2 => sourceLong "SCH" r1 x2 a2
  | .stdp r1 x2 a2 => sourceLong "STDP" r1 x2 a2
  | .lcnh r1 x2 a2 => sourceLong "LCNH" r1 x2 a2
  | .lav r1 x2 a2 => sourceLong "LAV" r1 x2 a2
  | .lch r1 x2 a2 => sourceLong "LCH" r1 x2 a2
  | .cldp r1 x2 a2 => sourceLong "CLDP" r1 x2 a2
  | .ldp r1 x2 a2 => sourceLong "LDP" r1 x2 a2
  | .cdp r1 x2 a2 => sourceLong "CDP" r1 x2 a2
  | .adp r1 x2 a2 => sourceLong "ADP" r1 x2 a2
  | .sdp r1 x2 a2 => sourceLong "SDP" r1 x2 a2
  | .mdp r1 x2 a2 => sourceLong "MDP" r1 x2 a2
  | .ddp r1 x2 a2 => sourceLong "DDP" r1 x2 a2
  | .ste r1 x2 a2 => sourceLong "STE" r1 x2 a2
  | .ahm r1 x2 a2 => sourceLong "AHM" r1 x2 a2
  | .atl r1 x2 a2 => sourceLong "ATL" r1 x2 a2
  | .abl r1 x2 a2 => sourceLong "ABL" r1 x2 a2
  | .rtl r1 x2 a2 => sourceLong "RTL" r1 x2 a2
  | .rbl r1 x2 a2 => sourceLong "RBL" r1 x2 a2
  | .le r1 x2 a2 => sourceLong "LE" r1 x2 a2
  | .ce r1 x2 a2 => sourceLong "CE" r1 x2 a2
  | .ae r1 x2 a2 => sourceLong "AE" r1 x2 a2
  | .se r1 x2 a2 => sourceLong "SE" r1 x2 a2
  | .me r1 x2 a2 => sourceLong "ME" r1 x2 a2
  | .de r1 x2 a2 => sourceLong "DE" r1 x2 a2
  | .stf r1 x2 a2 => sourceLong "STF" r1 x2 a2
  | .lh0 r1 x2 a2 => sourceLong "LH0" r1 x2 a2
  | .lh1 r1 x2 a2 => sourceLong "LH1" r1 x2 a2
  | .lh2 r1 x2 a2 => sourceLong "LH2" r1 x2 a2
  | .lh3 r1 x2 a2 => sourceLong "LH3" r1 x2 a2
  | .lf r1 x2 a2 => sourceLong "LF" r1 x2 a2
  | .cf r1 x2 a2 => sourceLong "CF" r1 x2 a2
  | .af r1 x2 a2 => sourceLong "AF" r1 x2 a2
  | .sf r1 x2 a2 => sourceLong "SF" r1 x2 a2
  | .mf r1 x2 a2 => sourceLong "MF" r1 x2 a2
  | .df r1 x2 a2 => sourceLong "DF" r1 x2 a2
  | .srls r1 n => sourceShort "SRLS" r1 n
  | .slls r1 n => sourceShort "SLLS" r1 n
  | .stbr r1 r2 => sourceShort "STBR" r1 r2
  | .lbr r1 r2 => sourceShort "LBR" r1 r2
  | .exbr r1 r2 => sourceShort "EXBR" r1 r2
  | .epsr r1 r2 => sourceShort "EPSR" r1 r2
  | .wbr r1 r2 => sourceShort "WBR" r1 r2
  | .rbr r1 r2 => sourceShort "RBR" r1 r2
  | .whr r1 r2 => sourceShort "WHR" r1 r2
  | .rhr r1 r2 => sourceShort "RHR" r1 r2
  | .wdr r1 r2 => sourceShort "WDR" r1 r2
  | .rdr r1 r2 => sourceShort "RDR" r1 r2
  | .mhur r1 r2 => sourceShort "MHUR" r1 r2
  | .ssr r1 r2 => sourceShort "SSR" r1 r2
  | .ocr r1 r2 => sourceShort "OCR" r1 r2
  | .air r1 r2 => sourceShort "AIR" r1 r2
  | .bxh r1 x2 a2 => sourceLong "BXH" r1 x2 a2
  | .bxle r1 x2 a2 => sourceLong "BXLE" r1 x2 a2
  | .lpsw _ x2 a2 => sourceNoR1 "LPSW" x2 a2
  | .thi r1 x2 i2 => sourceLong "THI" r1 x2 i2
  | .nhi r1 x2 i2 => sourceLong "NHI" r1 x2 i2
  | .clhi r1 x2 i2 => sourceLong "CLHI" r1 x2 i2
  | .ohi r1 x2 i2 => sourceLong "OHI" r1 x2 i2
  | .xhi r1 x2 i2 => sourceLong "XHI" r1 x2 i2
  | .lhi r1 x2 i2 => sourceLong "LHI" r1 x2 i2
  | .chi r1 x2 i2 => sourceLong "CHI" r1 x2 i2
  | .ahi r1 x2 i2 => sourceLong "AHI" r1 x2 i2
  | .shi r1 x2 i2 => sourceLong "SHI" r1 x2 i2
  | .srhl r1 x2 i2 => sourceLong "SRHL" r1 x2 i2
  | .slhl r1 x2 i2 => sourceLong "SLHL" r1 x2 i2
  | .srha r1 x2 i2 => sourceLong "SRHA" r1 x2 i2
  | .slha r1 x2 i2 => sourceLong "SLHA" r1 x2 i2
  | .stm r1 x2 a2 => sourceLong "STM" r1 x2 a2
  | .lm r1 x2 a2 => sourceLong "LM" r1 x2 a2
  | .stb r1 x2 a2 => sourceLong "STB" r1 x2 a2
  | .lb r1 x2 a2 => sourceLong "LB" r1 x2 a2
  | .clb r1 x2 a2 => sourceLong "CLB" r1 x2 a2
  | .al _ x2 a2 => sourceNoR1 "AL" x2 a2
  | .wb r1 x2 a2 => sourceLong "WB" r1 x2 a2
  | .rb r1 x2 a2 => sourceLong "RB" r1 x2 a2
  | .wh r1 x2 a2 => sourceLong "WH" r1 x2 a2
  | .rh r1 x2 a2 => sourceLong "RH" r1 x2 a2
  | .wd r1 x2 a2 => sourceLong "WD" r1 x2 a2
  | .rd r1 x2 a2 => sourceLong "RD" r1 x2 a2
  | .mhu r1 x2 a2 => sourceLong "MHU" r1 x2 a2
  | .ss r1 x2 a2 => sourceLong "SS" r1 x2 a2
  | .oc r1 x2 a2 => sourceLong "OC" r1 x2 a2
  | .ai r1 x2 a2 => sourceLong "AI" r1 x2 a2
  | .svc r1 x2 i2 => sourceLong "SVC" r1 x2 i2
  | .sint _ x2 i2 => sourceNoR1 "SINT" x2 i2
  | .resb _ x2 i2 => sourceNoR1 "RESB" x2 i2
  | .sesb _ x2 i2 => sourceNoR1 "SESB" x2 i2
  | .srqa r1 x2 i2 => sourceLong "SRQA" r1 x2 i2
  | .slql r1 x2 i2 => sourceLong "SLQL" r1 x2 i2
  | .srql r1 x2 i2 => sourceLong "SRQL" r1 x2 i2
  | .slqa r1 x2 i2 => sourceLong "SLQA" r1 x2 i2
  | .rrl r1 x2 i2 => sourceLong "RRL" r1 x2 i2
  | .rll r1 x2 i2 => sourceLong "RLL" r1 x2 i2
  | .srl r1 x2 i2 => sourceLong "SRL" r1 x2 i2
  | .sll r1 x2 i2 => sourceLong "SLL" r1 x2 i2
  | .sra r1 x2 i2 => sourceLong "SRA" r1 x2 i2
  | .sla r1 x2 i2 => sourceLong "SLA" r1 x2 i2
  | .sth0 r1 x2 a2 => sourceLong "STH0" r1 x2 a2
  | .sth1 r1 x2 a2 => sourceLong "STH1" r1 x2 a2
  | .sth2 r1 x2 a2 => sourceLong "STH2" r1 x2 a2
  | .sth3 r1 x2 a2 => sourceLong "STH3" r1 x2 a2
  | .ecpr r1 r2 => sourceShort "ECPR" r1 r2
  | .cosr r1 r2 => sourceShort "COSR" r1 r2
  | .cos r1 x2 a2 => sourceLong "COS" r1 x2 a2
  | .asnr r1 r2 => sourceShort "ASNR" r1 r2
  | .asn r1 x2 a2 => sourceLong "ASN" r1 x2 a2
  | .atnr r1 r2 => sourceShort "ATNR" r1 r2
  | .atn r1 x2 a2 => sourceLong "ATN" r1 x2 a2
  | .sqdr r1 r2 => sourceShort "SQDR" r1 r2
  | .sqd r1 x2 a2 => sourceLong "SQD" r1 x2 a2

/-- The extended branch mnemonics, by the name of their RX form (Table 2-4). -/
inductive ExtendedBranch where
  /-- Branch on Carry. -/
  | bc
  /-- Branch on No Carry. -/
  | bnc
  /-- Branch on Equal. -/
  | be
  /-- Branch on Not Equal. -/
  | bne
  /-- Branch on Low. -/
  | bl
  /-- Branch on Not Low. -/
  | bnl
  /-- Branch on Minus. -/
  | bm
  /-- Branch on Not Minus. -/
  | bnm
  /-- Branch on Plus. -/
  | bp
  /-- Branch on Not Plus. -/
  | bnp
  /-- Branch on Overflow. -/
  | bo
  /-- Branch on No Overflow. -/
  | bno
  /-- Branch on Zero. -/
  | bz
  /-- Branch on Not Zero. -/
  | bnz
  /-- Branch Unconditional. -/
  | b
  /-- No Operation. -/
  | nop
deriving DecidableEq, Repr

/-- Whether the branch instruction used is a branch on true, and the mask (Table 2-4 as corrected by 90_conflicts.md
C8). -/
def ExtendedBranch.code (e : ExtendedBranch) : Bool × RegNo :=
  match e with
  | .bc => (true, 8)
  | .bnc => (false, 8)
  | .be => (false, 3)
  | .bne => (true, 3)
  | .bl => (true, 8)
  | .bnl => (false, 8)
  | .bm => (true, 1)
  | .bnm => (false, 1)
  | .bp => (true, 2)
  | .bnp => (false, 2)
  | .bo => (true, 4)
  | .bno => (false, 4)
  | .bz => (false, 3)
  | .bnz => (true, 3)
  | .b => (false, 0)
  | .nop => (true, 0)

/-- The RX form, `BE A2(X2)`. -/
def ExtendedBranch.rx (e : ExtendedBranch) (x2 : RegNo) (a2 : Half) : Instr :=
  if e.code.1 then .btc e.code.2 x2 a2 else .bfc e.code.2 x2 a2

/-- The RR form, `BER R2`. -/
def ExtendedBranch.rr (e : ExtendedBranch) (r2 : RegNo) : Instr :=
  if e.code.1 then .btcr e.code.2 r2 else .bfcr e.code.2 r2

/-- The short form, `BES D`, backward or forward by the direction of the target; the no-operation has none. -/
def ExtendedBranch.short (e : ExtendedBranch) (backward : Bool) (d : RegNo) : Option Instr :=
  if e = .nop then none
  else
    match e.code.1, backward with
    | true, true => some (.btbs e.code.2 d)
    | true, false => some (.btfs e.code.2 d)
    | false, true => some (.bfbs e.code.2 d)
    | false, false => some (.bffs e.code.2 d)

end Sys2Proof
end

