-- ==== Sys2Proof/Tests/Slice0.lean ====
section
/-! SUPPORT. Small tests. Expected results are those of the vectors of 95_test_vectors.md, named in each comment, or are
worked out by hand from the rule named there. -/

namespace Sys2Proof.Tests

open Sys2Proof Sys2Proof.Machine

/-! ## Helpers -/

/-- A state with a PSW, registers and halfwords of bank 0, everything else as at reset. -/
def board (status loc : Half) (regs : List (RegNo × Half)) (mem : List (Half × Half)) : State :=
  let s := { State.reset with psw := { (State.reset.psw.withStatus status) with LOC := loc } }
  let t := regs.foldl (fun s r => s.setReg r.1 r.2) s
  mem.foldl (fun s m => s.setHalf 0 m.1 m.2) t

/-- The outcome is a next state that passes. -/
def ends (o : Outcome) (p : State → Bool) : Bool :=
  match o with
  | .next t => p t
  | _ => false

/-- One step that fetches the word at the location counter passes. -/
def runs (s : State) (nbits w : Nat) (p : State → Bool) : Bool := ends (step (s.withFetchWord nbits w)) p

/-- The memory of Table 2-5. -/
def table25 : List (Half × Half) := [(0x0050, 0x0123), (0x0052, 0x4567), (0x0054, 0x89ab), (0x0056, 0xcdef)]

/-- A device that answers every address, with these status and data bytes. -/
def answering (s : State) (statuses reads : List Byte) : State :=
  { s with env := { s.env with selects := [true], statuses := statuses, reads := reads, commands := [false]
                               readHalves := [0xc1c2] } }

/-! ## Well-formedness: each check refuses an ill-formed term (30_encoding.md rules R98, R99) -/

theorem test_wf_oddR1 : (Instr.ldp 3 0 0x0050).violations = [.oddR1] := by decide

theorem test_wf_oddR2 : (Instr.ldpr 2 5).violations = [.oddR2] := by decide

theorem test_wf_r1TooHigh : (Instr.bxh 14 0 0x0100).violations = [.r1TooHigh] := by decide

theorem test_wf_quadTooHigh : (Instr.slql 14 0 1).violations = [.r1TooHigh] := by decide

theorem test_wf_r2TooHigh : (Instr.rbr 1 15).violations = [.r2TooHigh] := by decide

theorem test_wf_r1NotZero : (Instr.lpsw 1 0 0x0096).violations = [.r1NotZero] := by decide

theorem test_wf_x2NotZero : (Instr.sesb 0 2 0x4000).violations = [.x2NotZero] := by decide

theorem test_wf_accepts : WellFormed (.ldpr 14 0) ∧ WellFormed (.bxh 13 0 0) ∧ WellFormed (.slql 12 0 1) ∧
    WellFormed (.eppr 14 0) ∧ WellFormed (.mhr 2 5) := by decide

/-! ## Decoding: every assigned operation code of Table 2-3 and list I-2 (30_encoding.md rule R101), the two 4-bit
fields
1 and 2 and the second halfword X'3456', written out from Figure 2-34 (rule R90) -/

theorem test_decode_0x :
    decodeTableWord 16 0x0112 = some (.balr 1 2) ∧
    decodeTableWord 16 0x0212 = some (.btcr 1 2) ∧
    decodeTableWord 16 0x0312 = some (.bfcr 1 2) ∧
    decodeTableWord 16 0x0412 = some (.nhr 1 2) ∧
    decodeTableWord 16 0x0512 = some (.clhr 1 2) ∧
    decodeTableWord 16 0x0612 = some (.ohr 1 2) ∧
    decodeTableWord 16 0x0712 = some (.xhr 1 2) ∧
    decodeTableWord 16 0x0812 = some (.lhr 1 2) ∧
    decodeTableWord 16 0x0912 = some (.chr 1 2) ∧
    decodeTableWord 16 0x0a12 = some (.ahr 1 2) ∧
    decodeTableWord 16 0x0b12 = some (.shr 1 2) ∧
    decodeTableWord 16 0x0c12 = some (.mhr 1 2) ∧
    decodeTableWord 16 0x0d12 = some (.dhr 1 2) ∧
    decodeTableWord 16 0x0e12 = some (.achr 1 2) ∧
    decodeTableWord 16 0x0f12 = some (.schr 1 2) := by
  decide

theorem test_decode_1x :
    decodeTableWord 16 0x1012 = some (.lcnhr 1 2) ∧
    decodeTableWord 16 0x1112 = some (.lavr 1 2) ∧
    decodeTableWord 16 0x1212 = some (.lchr 1 2) ∧
    decodeTableWord 16 0x1512 = some (.cldpr 1 2) ∧
    decodeTableWord 16 0x1812 = some (.ldpr 1 2) ∧
    decodeTableWord 16 0x1912 = some (.cdpr 1 2) ∧
    decodeTableWord 16 0x1a12 = some (.adpr 1 2) ∧
    decodeTableWord 16 0x1b12 = some (.sdpr 1 2) ∧
    decodeTableWord 16 0x1c12 = some (.mdpr 1 2) ∧
    decodeTableWord 16 0x1d12 = some (.ddpr 1 2) := by
  decide

theorem test_decode_2x :
    decodeTableWord 16 0x2012 = some (.btbs 1 2) ∧
    decodeTableWord 16 0x2112 = some (.btfs 1 2) ∧
    decodeTableWord 16 0x2212 = some (.bfbs 1 2) ∧
    decodeTableWord 16 0x2312 = some (.bffs 1 2) ∧
    decodeTableWord 16 0x2412 = some (.lis 1 2) ∧
    decodeTableWord 16 0x2512 = some (.lcs 1 2) ∧
    decodeTableWord 16 0x2612 = some (.ais 1 2) ∧
    decodeTableWord 16 0x2712 = some (.sis 1 2) ∧
    decodeTableWord 16 0x2812 = some (.ler 1 2) ∧
    decodeTableWord 16 0x2912 = some (.cer 1 2) ∧
    decodeTableWord 16 0x2a12 = some (.aer 1 2) ∧
    decodeTableWord 16 0x2b12 = some (.ser 1 2) ∧
    decodeTableWord 16 0x2c12 = some (.mer 1 2) ∧
    decodeTableWord 16 0x2d12 = some (.der 1 2) ∧
    decodeTableWord 16 0x2e12 = some (.epor 1 2) ∧
    decodeTableWord 16 0x2f12 = some (.eppr 1 2) := by
  decide

theorem test_decode_3x :
    decodeTableWord 16 0x3812 = some (.lfr 1 2) ∧
    decodeTableWord 16 0x3912 = some (.cfr 1 2) ∧
    decodeTableWord 16 0x3a12 = some (.afr 1 2) ∧
    decodeTableWord 16 0x3b12 = some (.sfr 1 2) ∧
    decodeTableWord 16 0x3c12 = some (.mfr 1 2) ∧
    decodeTableWord 16 0x3d12 = some (.dfr 1 2) := by
  decide

theorem test_decode_4x :
    decodeTableWord 32 0x40123456 = some (.sth 1 2 0x3456) ∧
    decodeTableWord 32 0x41123456 = some (.bal 1 2 0x3456) ∧
    decodeTableWord 32 0x42123456 = some (.btc 1 2 0x3456) ∧
    decodeTableWord 32 0x43123456 = some (.bfc 1 2 0x3456) ∧
    decodeTableWord 32 0x44123456 = some (.nh 1 2 0x3456) ∧
    decodeTableWord 32 0x45123456 = some (.clh 1 2 0x3456) ∧
    decodeTableWord 32 0x46123456 = some (.oh 1 2 0x3456) ∧
    decodeTableWord 32 0x47123456 = some (.xh 1 2 0x3456) ∧
    decodeTableWord 32 0x48123456 = some (.lh 1 2 0x3456) ∧
    decodeTableWord 32 0x49123456 = some (.ch 1 2 0x3456) ∧
    decodeTableWord 32 0x4a123456 = some (.ah 1 2 0x3456) ∧
    decodeTableWord 32 0x4b123456 = some (.sh 1 2 0x3456) ∧
    decodeTableWord 32 0x4c123456 = some (.mh 1 2 0x3456) ∧
    decodeTableWord 32 0x4d123456 = some (.dh 1 2 0x3456) ∧
    decodeTableWord 32 0x4e123456 = some (.ach 1 2 0x3456) ∧
    decodeTableWord 32 0x4f123456 = some (.sch 1 2 0x3456) := by
  decide

theorem test_decode_5x :
    decodeTableWord 32 0x50123456 = some (.stdp 1 2 0x3456) ∧
    decodeTableWord 32 0x51123456 = some (.lcnh 1 2 0x3456) ∧
    decodeTableWord 32 0x52123456 = some (.lav 1 2 0x3456) ∧
    decodeTableWord 32 0x53123456 = some (.lch 1 2 0x3456) ∧
    decodeTableWord 32 0x55123456 = some (.cldp 1 2 0x3456) ∧
    decodeTableWord 32 0x58123456 = some (.ldp 1 2 0x3456) ∧
    decodeTableWord 32 0x59123456 = some (.cdp 1 2 0x3456) ∧
    decodeTableWord 32 0x5a123456 = some (.adp 1 2 0x3456) ∧
    decodeTableWord 32 0x5b123456 = some (.sdp 1 2 0x3456) ∧
    decodeTableWord 32 0x5c123456 = some (.mdp 1 2 0x3456) ∧
    decodeTableWord 32 0x5d123456 = some (.ddp 1 2 0x3456) := by
  decide

theorem test_decode_6x :
    decodeTableWord 32 0x60123456 = some (.ste 1 2 0x3456) ∧
    decodeTableWord 32 0x61123456 = some (.ahm 1 2 0x3456) ∧
    decodeTableWord 32 0x64123456 = some (.atl 1 2 0x3456) ∧
    decodeTableWord 32 0x65123456 = some (.abl 1 2 0x3456) ∧
    decodeTableWord 32 0x66123456 = some (.rtl 1 2 0x3456) ∧
    decodeTableWord 32 0x67123456 = some (.rbl 1 2 0x3456) ∧
    decodeTableWord 32 0x68123456 = some (.le 1 2 0x3456) ∧
    decodeTableWord 32 0x69123456 = some (.ce 1 2 0x3456) ∧
    decodeTableWord 32 0x6a123456 = some (.ae 1 2 0x3456) ∧
    decodeTableWord 32 0x6b123456 = some (.se 1 2 0x3456) ∧
    decodeTableWord 32 0x6c123456 = some (.me 1 2 0x3456) ∧
    decodeTableWord 32 0x6d123456 = some (.de 1 2 0x3456) := by
  decide

theorem test_decode_7x :
    decodeTableWord 32 0x70123456 = some (.stf 1 2 0x3456) ∧
    decodeTableWord 32 0x74123456 = some (.lh0 1 2 0x3456) ∧
    decodeTableWord 32 0x75123456 = some (.lh1 1 2 0x3456) ∧
    decodeTableWord 32 0x76123456 = some (.lh2 1 2 0x3456) ∧
    decodeTableWord 32 0x77123456 = some (.lh3 1 2 0x3456) ∧
    decodeTableWord 32 0x78123456 = some (.lf 1 2 0x3456) ∧
    decodeTableWord 32 0x79123456 = some (.cf 1 2 0x3456) ∧
    decodeTableWord 32 0x7a123456 = some (.af 1 2 0x3456) ∧
    decodeTableWord 32 0x7b123456 = some (.sf 1 2 0x3456) ∧
    decodeTableWord 32 0x7c123456 = some (.mf 1 2 0x3456) ∧
    decodeTableWord 32 0x7d123456 = some (.df 1 2 0x3456) := by
  decide

theorem test_decode_9x :
    decodeTableWord 16 0x9012 = some (.srls 1 2) ∧
    decodeTableWord 16 0x9112 = some (.slls 1 2) ∧
    decodeTableWord 16 0x9212 = some (.stbr 1 2) ∧
    decodeTableWord 16 0x9312 = some (.lbr 1 2) ∧
    decodeTableWord 16 0x9412 = some (.exbr 1 2) ∧
    decodeTableWord 16 0x9512 = some (.epsr 1 2) ∧
    decodeTableWord 16 0x9612 = some (.wbr 1 2) ∧
    decodeTableWord 16 0x9712 = some (.rbr 1 2) ∧
    decodeTableWord 16 0x9812 = some (.whr 1 2) ∧
    decodeTableWord 16 0x9912 = some (.rhr 1 2) ∧
    decodeTableWord 16 0x9a12 = some (.wdr 1 2) ∧
    decodeTableWord 16 0x9b12 = some (.rdr 1 2) ∧
    decodeTableWord 16 0x9c12 = some (.mhur 1 2) ∧
    decodeTableWord 16 0x9d12 = some (.ssr 1 2) ∧
    decodeTableWord 16 0x9e12 = some (.ocr 1 2) ∧
    decodeTableWord 16 0x9f12 = some (.air 1 2) := by
  decide

theorem test_decode_cx :
    decodeTableWord 32 0xc0123456 = some (.bxh 1 2 0x3456) ∧
    decodeTableWord 32 0xc1123456 = some (.bxle 1 2 0x3456) ∧
    decodeTableWord 32 0xc2123456 = some (.lpsw 1 2 0x3456) ∧
    decodeTableWord 32 0xc3123456 = some (.thi 1 2 0x3456) ∧
    decodeTableWord 32 0xc4123456 = some (.nhi 1 2 0x3456) ∧
    decodeTableWord 32 0xc5123456 = some (.clhi 1 2 0x3456) ∧
    decodeTableWord 32 0xc6123456 = some (.ohi 1 2 0x3456) ∧
    decodeTableWord 32 0xc7123456 = some (.xhi 1 2 0x3456) ∧
    decodeTableWord 32 0xc8123456 = some (.lhi 1 2 0x3456) ∧
    decodeTableWord 32 0xc9123456 = some (.chi 1 2 0x3456) ∧
    decodeTableWord 32 0xca123456 = some (.ahi 1 2 0x3456) ∧
    decodeTableWord 32 0xcb123456 = some (.shi 1 2 0x3456) ∧
    decodeTableWord 32 0xcc123456 = some (.srhl 1 2 0x3456) ∧
    decodeTableWord 32 0xcd123456 = some (.slhl 1 2 0x3456) ∧
    decodeTableWord 32 0xce123456 = some (.srha 1 2 0x3456) ∧
    decodeTableWord 32 0xcf123456 = some (.slha 1 2 0x3456) := by
  decide

theorem test_decode_dx :
    decodeTableWord 32 0xd0123456 = some (.stm 1 2 0x3456) ∧
    decodeTableWord 32 0xd1123456 = some (.lm 1 2 0x3456) ∧
    decodeTableWord 32 0xd2123456 = some (.stb 1 2 0x3456) ∧
    decodeTableWord 32 0xd3123456 = some (.lb 1 2 0x3456) ∧
    decodeTableWord 32 0xd4123456 = some (.clb 1 2 0x3456) ∧
    decodeTableWord 32 0xd5123456 = some (.al 1 2 0x3456) ∧
    decodeTableWord 32 0xd6123456 = some (.wb 1 2 0x3456) ∧
    decodeTableWord 32 0xd7123456 = some (.rb 1 2 0x3456) ∧
    decodeTableWord 32 0xd8123456 = some (.wh 1 2 0x3456) ∧
    decodeTableWord 32 0xd9123456 = some (.rh 1 2 0x3456) ∧
    decodeTableWord 32 0xda123456 = some (.wd 1 2 0x3456) ∧
    decodeTableWord 32 0xdb123456 = some (.rd 1 2 0x3456) ∧
    decodeTableWord 32 0xdc123456 = some (.mhu 1 2 0x3456) ∧
    decodeTableWord 32 0xdd123456 = some (.ss 1 2 0x3456) ∧
    decodeTableWord 32 0xde123456 = some (.oc 1 2 0x3456) ∧
    decodeTableWord 32 0xdf123456 = some (.ai 1 2 0x3456) := by
  decide

theorem test_decode_ex :
    decodeTableWord 32 0xe1123456 = some (.svc 1 2 0x3456) ∧
    decodeTableWord 32 0xe2123456 = some (.sint 1 2 0x3456) ∧
    decodeTableWord 32 0xe3123456 = some (.resb 1 2 0x3456) ∧
    decodeTableWord 32 0xe4123456 = some (.sesb 1 2 0x3456) ∧
    decodeTableWord 32 0xe6123456 = some (.srqa 1 2 0x3456) ∧
    decodeTableWord 32 0xe7123456 = some (.slql 1 2 0x3456) ∧
    decodeTableWord 32 0xe8123456 = some (.srql 1 2 0x3456) ∧
    decodeTableWord 32 0xe9123456 = some (.slqa 1 2 0x3456) ∧
    decodeTableWord 32 0xea123456 = some (.rrl 1 2 0x3456) ∧
    decodeTableWord 32 0xeb123456 = some (.rll 1 2 0x3456) ∧
    decodeTableWord 32 0xec123456 = some (.srl 1 2 0x3456) ∧
    decodeTableWord 32 0xed123456 = some (.sll 1 2 0x3456) ∧
    decodeTableWord 32 0xee123456 = some (.sra 1 2 0x3456) ∧
    decodeTableWord 32 0xef123456 = some (.sla 1 2 0x3456) := by
  decide

theorem test_decode_fx :
    decodeTableWord 32 0xf8123456 = some (.sth0 1 2 0x3456) ∧
    decodeTableWord 32 0xf9123456 = some (.sth1 1 2 0x3456) ∧
    decodeTableWord 32 0xfa123456 = some (.sth2 1 2 0x3456) ∧
    decodeTableWord 32 0xfb123456 = some (.sth3 1 2 0x3456) := by
  decide

/-- No unassigned code decodes (rule R103). -/
theorem test_decode_unassigned :
    (unassignedCodes.all fun op => decide (decode [op, 0, 0, 0] = .error (.unassigned op))) = true := by decide

/-- EN9, EN10. -/
theorem test_decode_none : decodeTableWord 16 0x0000 = none ∧ decodeTableWord 16 0xa500 = none := by decide

/-- A two-byte instruction leaves the bytes after it; half an instruction is none (rule R100). -/
theorem test_decode_length : decode [0x24, 0x57, 0x48, 0x10] = .ok (.lis 5 7, [0x48, 0x10]) ∧
    decode [0x48, 0x10] = .error .truncated := by decide

/-! ## Single steps of the vectors of 95_test_vectors.md -/

/-- LV1: LIS 5,7. -/
theorem test_LV1_lis :
    runs (board 0x0000 0x3000 [] []) 16 0x2457 (fun t =>
      t.reg 5 == 0x0007 && t.psw.cc.G && !t.psw.cc.L && t.psw.LOC == 0x3002) = true := by decide

/-- LV4: LCS 2,15. -/
theorem test_LV4_lcs :
    runs (board 0x0000 0x3000 [] []) 16 0x252f (fun t =>
      t.reg 2 == 0xfff1 && !t.psw.cc.G && t.psw.cc.L && t.psw.LOC == 0x3002) = true := by decide

/-- LV6: LHR 3,3. -/
theorem test_LV6_lhr :
    runs (board 0x0000 0x3000 [(3, 0x8000)] []) 16 0x0833 (fun t =>
      t.reg 3 == 0x8000 && !t.psw.cc.G && t.psw.cc.L && t.psw.LOC == 0x3002) = true := by decide

/-- LV8: LH 1,X'FFFE'(2). -/
theorem test_LV8_lh :
    runs (board 0x0000 0x3000 [(2, 0x0052)] table25) 32 0x4812fffe (fun t =>
      t.reg 1 == 0x0123 && t.psw.LOC == 0x3004) = true := by decide

/-- LV7: LH 1,X'0050'(2). -/
theorem test_LV7_lh :
    runs (board 0x0000 0x3000 [(2, 0x0004)] table25) 32 0x48120050 (fun t =>
      t.reg 1 == 0x89ab && !t.psw.cc.G && t.psw.cc.L && t.psw.LOC == 0x3004) = true := by decide

/-- LV10: LHI 4,X'0010'(3). -/
theorem test_LV10_lhi :
    runs (board 0x0000 0x3000 [(3, 0x0005)] []) 32 0xc8430010 (fun t =>
      t.reg 4 == 0x0015 && t.psw.cc.G && !t.psw.cc.L && t.psw.LOC == 0x3004) = true := by decide

/-- LV12: LDPR 2,4. -/
theorem test_LV12_ldpr :
    runs (board 0x0000 0x3000 [(4, 0x8000), (5, 0x0000)] []) 16 0x1824 (fun t =>
      t.reg 2 == 0x8000 && t.reg 3 == 0x0000 && !t.psw.cc.G && t.psw.cc.L && t.psw.LOC == 0x3002) = true := by
        decide

/-- LV13: LM 13,X'0100'. -/
theorem test_LV13_lm :
    runs (board 0x0000 0x3000 [] [(0x0100, 0x000d), (0x0102, 0x000e), (0x0104, 0x000f)]) 32 0xd1d00100 (fun t =>
      t.psw.cc.bits == 0 && t.reg 13 == 0x000d && t.reg 14 == 0x000e && t.reg 15 == 0x000f && t.psw.LOC == 0x3004) =
        true := by decide

/-- LV15: STM 14,X'0200'. -/
theorem test_LV15_stm :
    runs (board 0x0000 0x3000 [(14, 0x1111), (15, 0x2222)] []) 32 0xd0e00200 (fun t =>
      t.psw.cc.bits == 0 && t.halfAt 0 0x0200 == 0x1111 && t.halfAt 0 0x0202 == 0x2222 && t.psw.LOC == 0x3004) =
        true := by decide

/-- LV16: STH 1,X'0052'. -/
theorem test_LV16_sth :
    runs (board 0x0000 0x3000 [(1, 0xbeef)] []) 32 0x40100052 (fun t =>
      t.halfAt 0 0x0052 == 0xbeef && t.psw.cc.bits == 0 && t.psw.LOC == 0x3004) = true := by decide

/-- LV17: STDP 2,X'0060'. -/
theorem test_LV17_stdp :
    runs (board 0x0000 0x3000 [(2, 0x0123), (3, 0x4567)] []) 32 0x50200060 (fun t =>
      t.fullAt 0 0x0060 == 0x01234567 && t.psw.LOC == 0x3004) = true := by decide

/-- AV1: AIS 1,1. -/
theorem test_AV1_ais :
    runs (board 0x0000 0x3000 [(1, 0x7fff)] []) 16 0x2611 (fun t =>
      t.reg 1 == 0x8000 && t.psw.cc.bits == 5 && t.psw.LOC == 0x3002) = true := by decide

/-- AV4: AHR 1,2. -/
theorem test_AV4_ahr :
    runs (board 0x0000 0x3000 [(1, 0x8000), (2, 0x8000)] []) 16 0x0a12 (fun t =>
      t.reg 1 == 0x0000 && t.psw.cc.bits == 12 && t.psw.LOC == 0x3002) = true := by decide

/-- AV3: AHR 1,2. -/
theorem test_AV3_ahr :
    runs (board 0x0000 0x3000 [(1, 0xffff), (2, 0x0001)] []) 16 0x0a12 (fun t =>
      t.reg 1 == 0x0000 && t.psw.cc.bits == 8 && t.psw.LOC == 0x3002) = true := by decide

/-- AV8: AHI 3,X'8000'. -/
theorem test_AV8_ahi :
    runs (board 0x0000 0x3000 [(3, 0x8000)] []) 32 0xca308000 (fun t =>
      t.reg 3 == 0x0000 && t.psw.cc.bits == 12 && t.psw.LOC == 0x3004) = true := by decide

/-- AV10: AHM 1,X'0100'. -/
theorem test_AV10_ahm :
    runs (board 0x0000 0x3000 [(1, 0x0001)] [(0x0100, 0xffff)]) 32 0x61100100 (fun t =>
      t.reg 1 == 0x0001 && t.halfAt 0 0x0100 == 0x0000 && t.psw.cc.bits == 8 && t.psw.LOC == 0x3004) = true := by
        decide

/-- AV12: ACHR 1,2. -/
theorem test_AV12_achr :
    runs (board 0x0008 0x3000 [(1, 0xffff), (2, 0xffff)] []) 16 0x0e12 (fun t =>
      t.reg 1 == 0xffff && t.psw.cc.bits == 9 && t.psw.LOC == 0x3002) = true := by decide

/-- AV15: ACHR 1,2. -/
theorem test_AV15_achr :
    runs (board 0x0000 0x3000 [(1, 0xffff), (2, 0x0000)] []) 16 0x0e12 (fun t =>
      t.reg 1 == 0xffff && t.psw.cc.bits == 1 && t.psw.LOC == 0x3002) = true := by decide

/-- AV16: SIS 1,1. -/
theorem test_AV16_sis :
    runs (board 0x0000 0x3000 [(1, 0x0000)] []) 16 0x2711 (fun t =>
      t.reg 1 == 0xffff && t.psw.cc.bits == 9 && t.psw.LOC == 0x3002) = true := by decide

/-- AV18: SHR 1,2. -/
theorem test_AV18_shr :
    runs (board 0x0000 0x3000 [(1, 0x7fff), (2, 0xffff)] []) 16 0x0b12 (fun t =>
      t.reg 1 == 0x8000 && t.psw.cc.bits == 13 && t.psw.LOC == 0x3002) = true := by decide

/-- AV17: SHR 1,2. -/
theorem test_AV17_shr :
    runs (board 0x0000 0x3000 [(1, 0x8000), (2, 0x0001)] []) 16 0x0b12 (fun t =>
      t.reg 1 == 0x7fff && t.psw.cc.bits == 6 && t.psw.LOC == 0x3002) = true := by decide

/-- AV21: SHI 2,X'0010'. -/
theorem test_AV21_shi :
    runs (board 0x0000 0x3000 [(2, 0x0005)] []) 32 0xcb200010 (fun t =>
      t.reg 2 == 0xfff5 && t.psw.cc.bits == 9 && t.psw.LOC == 0x3004) = true := by decide

/-- AV25: SCHR 1,2. -/
theorem test_AV25_schr :
    runs (board 0x0008 0x3000 [(1, 0x0005), (2, 0x0003)] []) 16 0x0f12 (fun t =>
      t.reg 1 == 0x0001 && t.psw.cc.bits == 2 && t.psw.LOC == 0x3002) = true := by decide

/-- AV24: SCHR 1,2. -/
theorem test_AV24_schr :
    runs (board 0x0008 0x3000 [(1, 0x0000), (2, 0xffff)] []) 16 0x0f12 (fun t =>
      t.reg 1 == 0x0000 && t.psw.cc.bits == 8 && t.psw.LOC == 0x3002) = true := by decide

/-- AV33: ADPR 2,4. -/
theorem test_AV33_adpr :
    runs (board 0x0000 0x3000 [(2, 0x8000), (3, 0x0000), (4, 0x8000), (5, 0x0000)] []) 16 0x1a24 (fun t =>
      t.reg 2 == 0x0000 && t.reg 3 == 0x0000 && t.psw.cc.bits == 12 && t.psw.LOC == 0x3002) = true := by decide

/-- AV34: ADP 2,X'0050'. -/
theorem test_AV34_adp :
    runs (board 0x0000 0x3000 [(2, 0x7fff), (3, 0xffff)] table25) 32 0x5a200050 (fun t =>
      t.reg 2 == 0x8123 && t.reg 3 == 0x4566 && t.psw.cc.bits == 5 && t.psw.LOC == 0x3004) = true := by decide

/-- AV36: SDPR 2,4. -/
theorem test_AV36_sdpr :
    runs (board 0x0000 0x3000 [(2, 0x0000), (3, 0x0000), (4, 0x0000), (5, 0x0001)] []) 16 0x1b24 (fun t =>
      t.reg 2 == 0xffff && t.reg 3 == 0xffff && t.psw.cc.bits == 9 && t.psw.LOC == 0x3002) = true := by decide

/-- AV38: SDP 2,X'0050'. -/
theorem test_AV38_sdp :
    runs (board 0x0000 0x3000 [(2, 0x0000), (3, 0x0000)] table25) 32 0x5b200050 (fun t =>
      t.reg 2 == 0xfedc && t.reg 3 == 0xba99 && t.psw.cc.bits == 9 && t.psw.LOC == 0x3004) = true := by decide

/-- MV1: MHR 2,5. -/
theorem test_MV1_mhr :
    runs (board 0x0000 0x3000 [(2, 0xfffe), (5, 0x0003)] []) 16 0x0c25 (fun t =>
      t.reg 2 == 0xffff && t.reg 3 == 0xfffa && t.reg 2 == 0xffff && t.reg 3 == 0xfffa && t.psw.LOC == 0x3002) =
        true := by decide

/-- MV5: MH 2,X'0050'. -/
theorem test_MV5_mh :
    runs (board 0x0000 0x3000 [(2, 0x0100)] [(0x0050, 0x0123)]) 32 0x4c200050 (fun t =>
      t.reg 2 == 0x0001 && t.reg 3 == 0x2300 && t.psw.LOC == 0x3004) = true := by decide

/-- MV6: MHUR 2,5. -/
theorem test_MV6_mhur :
    runs (board 0x0000 0x3000 [(3, 0xffff), (5, 0xffff)] []) 16 0x9c25 (fun t =>
      t.reg 2 == 0xfffe && t.reg 3 == 0x0001 && t.psw.LOC == 0x3002) = true := by decide

/-- MV8: MHU 2,X'0050'. -/
theorem test_MV8_mhu :
    runs (board 0x0000 0x3000 [(3, 0x8000)] [(0x0050, 0x0123)]) 32 0xdc200050 (fun t =>
      t.reg 2 == 0x0091 && t.reg 3 == 0x8000 && t.psw.LOC == 0x3004) = true := by decide

/-- MV10: MDPR 4,8. -/
theorem test_MV10_mdpr :
    runs (board 0x0000 0x3000 [(6, 0x8000), (7, 0x0000), (8, 0x8000), (9, 0x0000)] []) 16 0x1c48 (fun t =>
      t.reg 4 == 0x4000 && t.reg 5 == 0x0000 && t.reg 6 == 0x0000 && t.reg 7 == 0x0000 && t.psw.LOC == 0x3002) =
        true := by decide

/-- MV11: MDP 4,X'0050'. -/
theorem test_MV11_mdp :
    runs (board 0x0000 0x3000 [(6, 0xffff), (7, 0xffff)] table25) 32 0x5c400050 (fun t =>
      t.reg 4 == 0xffff && t.reg 5 == 0xffff && t.reg 6 == 0xfedc && t.reg 7 == 0xba99 && t.psw.LOC == 0x3004) =
        true := by decide

/-- DV1: DHR 2,5. -/
theorem test_DV1_dhr :
    runs (board 0x0000 0x3000 [(2, 0xffff), (3, 0xff9c), (5, 0x0007)] []) 16 0x0d25 (fun t =>
      t.reg 3 == 0xfff2 && t.reg 2 == 0xfffe && t.psw.LOC == 0x3002) = true := by decide

/-- DV3: DH 2,X'0050'. -/
theorem test_DV3_dh :
    runs (board 0x0000 0x3000 [(2, 0x0000), (3, 0x03e8)] [(0x0050, 0x0123)]) 32 0x4d200050 (fun t =>
      t.reg 3 == 0x0003 && t.reg 2 == 0x007f && t.psw.LOC == 0x3004) = true := by decide

/-- DV11: DDPR 4,8. -/
theorem test_DV11_ddpr :
    runs (board 0x0000 0x3000 [(8, 0xffff), (9, 0xfff9), (4, 0x0000), (5, 0x0000), (6, 0x0000), (7, 0x0064)] []) 16
      0x1d48 (fun t =>
      t.reg 6 == 0xffff && t.reg 7 == 0xfff2 && t.reg 4 == 0x0000 && t.reg 5 == 0x0002 && t.psw.LOC == 0x3002) =
        true := by decide

/-- DV12: DDP 4,X'0050'. -/
theorem test_DV12_ddp :
    runs (board 0x0000 0x3000 [(4, 0x0000), (5, 0x0000), (6, 0x0246), (7, 0x8acf)] table25) 32 0x5d400050 (fun t =>
      t.reg 6 == 0x0000 && t.reg 7 == 0x0002 && t.reg 4 == 0x0000 && t.reg 5 == 0x0001 && t.psw.LOC == 0x3004) =
        true := by decide

/-- GV1: NHR 1,2. -/
theorem test_GV1_nhr :
    runs (board 0x0000 0x3000 [(1, 0xf0f0), (2, 0xff00)] []) 16 0x0412 (fun t =>
      t.reg 1 == 0xf000 && !t.psw.cc.G && t.psw.cc.L && t.psw.LOC == 0x3002) = true := by decide

/-- GV2: NHI 1,X'000F'. -/
theorem test_GV2_nhi :
    runs (board 0x0000 0x3000 [(1, 0x1230)] []) 32 0xc410000f (fun t =>
      t.reg 1 == 0x0000 && !t.psw.cc.G && !t.psw.cc.L && t.psw.LOC == 0x3004) = true := by decide

/-- GV3: NH 1,X'0050'. -/
theorem test_GV3_nh :
    runs (board 0x0000 0x3000 [(1, 0x00ff)] [(0x0050, 0x0123)]) 32 0x44100050 (fun t =>
      t.reg 1 == 0x0023 && t.psw.cc.G && !t.psw.cc.L && t.psw.LOC == 0x3004) = true := by decide

/-- GV4: OHR 1,2. -/
theorem test_GV4_ohr :
    runs (board 0x0000 0x3000 [(1, 0x00f0), (2, 0x0f00)] []) 16 0x0612 (fun t =>
      t.reg 1 == 0x0ff0 && t.psw.cc.G && !t.psw.cc.L && t.psw.LOC == 0x3002) = true := by decide

/-- GV5: OH 1,X'0050'. -/
theorem test_GV5_oh :
    runs (board 0x0000 0x3000 [(1, 0x8000)] [(0x0050, 0x0123)]) 32 0x46100050 (fun t =>
      t.reg 1 == 0x8123 && !t.psw.cc.G && t.psw.cc.L && t.psw.LOC == 0x3004) = true := by decide

/-- GV6: OHI 1,X'0000'. -/
theorem test_GV6_ohi :
    runs (board 0x0000 0x3000 [(1, 0x0000)] []) 32 0xc6100000 (fun t =>
      t.reg 1 == 0x0000 && !t.psw.cc.G && !t.psw.cc.L && t.psw.LOC == 0x3004) = true := by decide

/-- GV7: XHR 1,2. -/
theorem test_GV7_xhr :
    runs (board 0x0000 0x3000 [(1, 0xffff), (2, 0x0f0f)] []) 16 0x0712 (fun t =>
      t.reg 1 == 0xf0f0 && !t.psw.cc.G && t.psw.cc.L && t.psw.LOC == 0x3002) = true := by decide

/-- GV9: XHI 1,X'FFFF'. -/
theorem test_GV9_xhi :
    runs (board 0x0000 0x3000 [(1, 0x00ff)] []) 32 0xc710ffff (fun t =>
      t.reg 1 == 0xff00 && !t.psw.cc.G && t.psw.cc.L && t.psw.LOC == 0x3004) = true := by decide

/-- GV10: XH 1,X'0050'. -/
theorem test_GV10_xh :
    runs (board 0x0000 0x3000 [(1, 0x0123)] [(0x0050, 0x0123)]) 32 0x47100050 (fun t =>
      t.reg 1 == 0x0000 && !t.psw.cc.G && !t.psw.cc.L && t.psw.LOC == 0x3004) = true := by decide

/-- GV12: THI 3,X'8001'. -/
theorem test_GV12_thi :
    runs (board 0x0000 0x3000 [(3, 0xffff)] []) 32 0xc3308001 (fun t =>
      !t.psw.cc.G && t.psw.cc.L && t.psw.LOC == 0x3004) = true := by decide

/-- GV13: CLHR 1,2. -/
theorem test_GV13_clhr :
    runs (board 0x0000 0x3000 [(1, 0x0001), (2, 0xffff)] []) 16 0x0512 (fun t =>
      t.psw.cc.C && t.psw.cc.G && !t.psw.cc.L && t.psw.LOC == 0x3002) = true := by decide

/-- GV15: CLH 1,X'0050'. -/
theorem test_GV15_clh :
    runs (board 0x0000 0x3000 [(1, 0x0123)] [(0x0050, 0x0123)]) 32 0x45100050 (fun t =>
      !t.psw.cc.C && !t.psw.cc.G && !t.psw.cc.L && t.psw.LOC == 0x3004) = true := by decide

/-- GV16: CLHI 1,X'0010'. -/
theorem test_GV16_clhi :
    runs (board 0x0000 0x3000 [(1, 0x8000)] []) 32 0xc5100010 (fun t =>
      !t.psw.cc.C && t.psw.cc.G && !t.psw.cc.L && t.psw.LOC == 0x3004) = true := by decide

/-- GV17: CLDPR 2,4. -/
theorem test_GV17_cldpr :
    runs (board 0x0000 0x3000 [(2, 0x0001), (3, 0x0000), (4, 0x0000), (5, 0xffff)] []) 16 0x1524 (fun t =>
      !t.psw.cc.C && t.psw.cc.G && !t.psw.cc.L && t.psw.LOC == 0x3002) = true := by decide

/-- GV18: CLDP 2,X'0050'. -/
theorem test_GV18_cldp :
    runs (board 0x0000 0x3000 [(2, 0x0123), (3, 0x4566)] table25) 32 0x55200050 (fun t =>
      t.psw.cc.C && !t.psw.cc.G && t.psw.cc.L && t.psw.LOC == 0x3004) = true := by decide

/-- GV20: CHR 1,2. -/
theorem test_GV20_chr :
    runs (board 0x0000 0x3000 [(1, 0x8000), (2, 0x0001)] []) 16 0x0912 (fun t =>
      t.psw.cc.C && !t.psw.cc.G && t.psw.cc.L && t.psw.LOC == 0x3002) = true := by decide

/-- GV22: CH 1,X'0050'. -/
theorem test_GV22_ch :
    runs (board 0x0000 0x3000 [(1, 0x0200)] [(0x0050, 0x0123)]) 32 0x49100050 (fun t =>
      !t.psw.cc.C && t.psw.cc.G && !t.psw.cc.L && t.psw.LOC == 0x3004) = true := by decide

/-- GV23: CHI 1,X'0000'. -/
theorem test_GV23_chi :
    runs (board 0x0000 0x3000 [(1, 0x8000)] []) 32 0xc9100000 (fun t =>
      t.psw.cc.C && !t.psw.cc.G && t.psw.cc.L && t.psw.LOC == 0x3004) = true := by decide

/-- GV25: CDPR 2,4. -/
theorem test_GV25_cdpr :
    runs (board 0x0000 0x3000 [(2, 0x8000), (3, 0x0000), (4, 0x7fff), (5, 0xffff)] []) 16 0x1924 (fun t =>
      t.psw.cc.C && !t.psw.cc.G && t.psw.cc.L && t.psw.LOC == 0x3002) = true := by decide

/-- GV26: CDP 2,X'0050'. -/
theorem test_GV26_cdp :
    runs (board 0x0000 0x3000 [(2, 0x0123), (3, 0x4567)] table25) 32 0x59200050 (fun t =>
      !t.psw.cc.C && !t.psw.cc.G && !t.psw.cc.L && t.psw.LOC == 0x3004) = true := by decide

/-- BV1: LBR 1,2. -/
theorem test_BV1_lbr :
    runs (board 0x0000 0x3000 [(2, 0xabcd)] []) 16 0x9312 (fun t =>
      t.reg 1 == 0x00cd && t.psw.LOC == 0x3002) = true := by decide

/-- BV3: LB 1,X'0050'(1). -/
theorem test_BV3_lb :
    runs (board 0x0000 0x3000 [(1, 0x0005)] table25) 32 0xd3110050 (fun t =>
      t.reg 1 == 0x00ab && t.psw.LOC == 0x3004) = true := by decide

/-- BV4: STBR 1,2. -/
theorem test_BV4_stbr :
    runs (board 0x0000 0x3000 [(1, 0x12ef), (2, 0xabcd)] []) 16 0x9212 (fun t =>
      t.reg 2 == 0xabef && t.psw.LOC == 0x3002) = true := by decide

/-- BV5: STB 1,X'0101'. -/
theorem test_BV5_stb :
    runs (board 0x0000 0x3000 [(1, 0x12ef)] [(0x0100, 0xaaaa)]) 32 0xd2100101 (fun t =>
      t.halfAt 0 0x0100 == 0xaaef && t.psw.LOC == 0x3004) = true := by decide

/-- BV7: EXBR 1,2. -/
theorem test_BV7_exbr :
    runs (board 0x0000 0x3000 [(2, 0xabcd)] []) 16 0x9412 (fun t =>
      t.reg 1 == 0xcdab && t.psw.LOC == 0x3002) = true := by decide

/-- BV9: CLB 1,X'0051'. -/
theorem test_BV9_clb :
    runs (board 0x0000 0x3000 [(1, 0xff10)] table25) 32 0xd4100051 (fun t =>
      t.psw.cc.C && t.psw.LOC == 0x3004) = true := by decide

/-- HV3: SLLS 1,15. -/
theorem test_HV3_slls :
    runs (board 0x0000 0x3000 [(1, 0xffff)] []) 16 0x911f (fun t =>
      t.reg 1 == 0x8000 && t.psw.cc.bits == 9 && t.psw.LOC == 0x3002) = true := by decide

/-- HV4: SLLS 1,0. -/
theorem test_HV4_slls :
    runs (board 0x0000 0x3000 [(1, 0x0000)] []) 16 0x9110 (fun t =>
      t.reg 1 == 0x0000 && !t.psw.cc.V && !t.psw.cc.G && !t.psw.cc.L && t.psw.LOC == 0x3002) = true := by decide

/-- HV7: SLHL 1,X'0003'(2). -/
theorem test_HV7_slhl :
    runs (board 0x0000 0x3000 [(1, 0x0001), (2, 0x0001)] []) 32 0xcd120003 (fun t =>
      t.reg 1 == 0x0010 && t.psw.cc.bits == 2 && t.psw.LOC == 0x3004) = true := by decide

/-- HV10: SRLS 1,15. -/
theorem test_HV10_srls :
    runs (board 0x0000 0x3000 [(1, 0x8000)] []) 16 0x901f (fun t =>
      t.reg 1 == 0x0001 && t.psw.cc.bits == 2 && t.psw.LOC == 0x3002) = true := by decide

/-- HV11: SRHL 1,1. -/
theorem test_HV11_srhl :
    runs (board 0x0000 0x3000 [(1, 0x0001)] []) 32 0xcc100001 (fun t =>
      t.reg 1 == 0x0000 && t.psw.cc.bits == 8 && t.psw.LOC == 0x3004) = true := by decide

/-- HV14: SLHA 1,1. -/
theorem test_HV14_slha :
    runs (board 0x0000 0x3000 [(1, 0x4000)] []) 32 0xcf100001 (fun t =>
      t.reg 1 == 0x0000 && t.psw.cc.bits == 8 && t.psw.LOC == 0x3004) = true := by decide

/-- HV13: SLHA 1,1. -/
theorem test_HV13_slha :
    runs (board 0x0000 0x3000 [(1, 0xc000)] []) 32 0xcf100001 (fun t =>
      t.reg 1 == 0x8000 && t.psw.cc.bits == 9 && t.psw.LOC == 0x3004) = true := by decide

/-- HV17: SRHA 1,2. -/
theorem test_HV17_srha :
    runs (board 0x0000 0x3000 [(1, 0x8006)] []) 32 0xce100002 (fun t =>
      t.reg 1 == 0xe001 && t.psw.cc.bits == 9 && t.psw.LOC == 0x3004) = true := by decide

/-- HV20: SLL 2,16. -/
theorem test_HV20_sll :
    runs (board 0x0000 0x3000 [(2, 0x0001), (3, 0x8000)] []) 32 0xed200010 (fun t =>
      t.reg 2 == 0x8000 && t.reg 3 == 0x0000 && t.psw.cc.bits == 9 && t.psw.LOC == 0x3004) = true := by decide

/-- HV23: SRL 2,4. -/
theorem test_HV23_srl :
    runs (board 0x0000 0x3000 [(2, 0x1234), (3, 0x5678)] []) 32 0xec200004 (fun t =>
      t.reg 2 == 0x0123 && t.reg 3 == 0x4567 && t.psw.cc.bits == 10 && t.psw.LOC == 0x3004) = true := by decide

/-- HV25: SLA 2,4. -/
theorem test_HV25_sla :
    runs (board 0x0000 0x3000 [(2, 0x0123), (3, 0x4567)] []) 32 0xef200004 (fun t =>
      t.reg 2 == 0x1234 && t.reg 3 == 0x5670 && t.psw.cc.bits == 2 && t.psw.LOC == 0x3004) = true := by decide

/-- HV27: SRA 2,8. -/
theorem test_HV27_sra :
    runs (board 0x0000 0x3000 [(2, 0xffff), (3, 0x00ff)] []) 32 0xee200008 (fun t =>
      t.reg 2 == 0xffff && t.reg 3 == 0xff00 && t.psw.cc.bits == 9 && t.psw.LOC == 0x3004) = true := by decide

/-- HV31: RLL 2,31. -/
theorem test_HV31_rll :
    runs (board 0x0000 0x3000 [(2, 0x1234), (3, 0x5678)] []) 32 0xeb20001f (fun t =>
      t.reg 2 == 0x091a && t.reg 3 == 0x2b3c && t.psw.cc.bits == 2 && t.psw.LOC == 0x3004) = true := by decide

/-- HV33: RRL 2,4. -/
theorem test_HV33_rrl :
    runs (board 0x0000 0x3000 [(2, 0x1234), (3, 0x5678)] []) 32 0xea200004 (fun t =>
      t.reg 2 == 0x8123 && t.reg 3 == 0x4567 && t.psw.cc.bits == 1 && t.psw.LOC == 0x3004) = true := by decide

/-- HV36: SLQL 4,32. -/
theorem test_HV36_slql :
    runs (board 0x0000 0x3000 [(4, 0x0000), (5, 0x0001), (6, 0x8000), (7, 0x0000)] []) 32 0xe7400020 (fun t =>
      t.reg 4 == 0x8000 && t.reg 5 == 0x0000 && t.reg 6 == 0x0000 && t.reg 7 == 0x0000 && t.psw.cc.bits == 9 &&
        t.psw.LOC == 0x3004) = true := by decide

/-- HV37: SRQL 4,63. -/
theorem test_HV37_srql :
    runs (board 0x0000 0x3000 [(4, 0x8000), (5, 0x0000), (6, 0x0000), (7, 0x0000)] []) 32 0xe840003f (fun t =>
      t.reg 4 == 0x0000 && t.reg 5 == 0x0000 && t.reg 6 == 0x0000 && t.reg 7 == 0x0001 && t.psw.cc.bits == 2 &&
        t.psw.LOC == 0x3004) = true := by decide

/-- HV39: SLQA 4,63. -/
theorem test_HV39_slqa :
    runs (board 0x0000 0x3000 [(4, 0x8000), (5, 0x0000), (6, 0x0000), (7, 0x0001)] []) 32 0xe940003f (fun t =>
      t.reg 4 == 0x8000 && t.reg 5 == 0x0000 && t.reg 6 == 0x0000 && t.reg 7 == 0x0000 && t.psw.cc.bits == 9 &&
        t.psw.LOC == 0x3004) = true := by decide

/-- HV40: SRQA 4,4. -/
theorem test_HV40_srqa :
    runs (board 0x0000 0x3000 [(4, 0xf000), (5, 0x0000), (6, 0x0000), (7, 0x0010)] []) 32 0xe6400004 (fun t =>
      t.reg 4 == 0xff00 && t.reg 5 == 0x0000 && t.reg 6 == 0x0000 && t.reg 7 == 0x0001 && t.psw.cc.bits == 1 &&
        t.psw.LOC == 0x3004) = true := by decide

/-- JV1: BTCR 8,5. -/
theorem test_JV1_btcr :
    runs (board 0x000a 0x0100 [(5, 0x0200)] []) 16 0x0285 (fun t =>
      t.psw.cc.bits == 10 && t.psw.LOC == 0x0200) = true := by decide

/-- JV3: BFCR 0,15. -/
theorem test_JV3_bfcr :
    runs (board 0x0000 0x0300 [(15, 0x0104)] []) 16 0x030f (fun t =>
      t.psw.cc.bits == 0 && t.psw.LOC == 0x0104) = true := by decide

/-- JV4: BTC 3,X'0120'. -/
theorem test_JV4_btc :
    runs (board 0x0002 0x0100 [] []) 32 0x42300120 (fun t =>
      t.psw.cc.bits == 2 && t.psw.LOC == 0x0120) = true := by decide

/-- JV5: BTC 3,X'0120'. -/
theorem test_JV5_btc :
    runs (board 0x000c 0x0100 [] []) 32 0x42300120 (fun t =>
      t.psw.cc.bits == 12 && t.psw.LOC == 0x0104) = true := by decide

/-- JV6: BFC 0,X'0100'(4). -/
theorem test_JV6_bfc :
    runs (board 0x0000 0x0200 [(4, 0x0006)] []) 32 0x43040100 (fun t =>
      t.psw.cc.bits == 0 && t.psw.LOC == 0x0106) = true := by decide

/-- JV7: BTBS 8,1. -/
theorem test_JV7_btbs :
    runs (board 0x0008 0x0104 [] []) 16 0x2081 (fun t =>
      t.psw.cc.bits == 8 && t.psw.LOC == 0x0102) = true := by decide

/-- JV9: BTFS 2,3. -/
theorem test_JV9_btfs :
    runs (board 0x0002 0x0100 [] []) 16 0x2123 (fun t =>
      t.psw.cc.bits == 2 && t.psw.LOC == 0x0106) = true := by decide

/-- JV11: BFBS 0,2. -/
theorem test_JV11_bfbs :
    runs (board 0x0000 0x0110 [] []) 16 0x2202 (fun t =>
      t.psw.cc.bits == 0 && t.psw.LOC == 0x010c) = true := by decide

/-- JV14: BFFS 0,15. -/
theorem test_JV14_bffs :
    runs (board 0x0000 0xfff0 [] []) 16 0x230f (fun t =>
      t.psw.cc.bits == 0 && t.psw.LOC == 0x000e) = true := by decide

/-- JV15: BXH 1,X'0100'. -/
theorem test_JV15_bxh :
    runs (board 0x0000 0x0200 [(1, 0x0003), (2, 0xffff), (3, 0x0000)] []) 32 0xc0100100 (fun t =>
      t.reg 1 == 0x0002 && t.psw.cc.bits == 0 && t.psw.LOC == 0x0100) = true := by decide

/-- JV19: BXLE 1,X'0100'. -/
theorem test_JV19_bxle :
    runs (board 0x0000 0x0200 [(1, 0xfffe), (2, 0x0001), (3, 0x0004)] []) 32 0xc1100100 (fun t =>
      t.reg 1 == 0xffff && t.psw.cc.bits == 0 && t.psw.LOC == 0x0204) = true := by decide

/-- JV17: BXLE 1,X'0100'. -/
theorem test_JV17_bxle :
    runs (board 0x0000 0x0200 [(1, 0x0002), (2, 0x0002), (3, 0x0004)] []) 32 0xc1100100 (fun t =>
      t.reg 1 == 0x0004 && t.psw.cc.bits == 0 && t.psw.LOC == 0x0100) = true := by decide

/-- JV22: BALR 4,4. -/
theorem test_JV22_balr :
    runs (board 0x0000 0x0100 [(4, 0x0200)] []) 16 0x0144 (fun t =>
      t.reg 4 == 0x0102 && t.psw.cc.bits == 0 && t.psw.LOC == 0x0200) = true := by decide

/-- JV23: BAL 15,X'0200'. -/
theorem test_JV23_bal :
    runs (board 0x0000 0x0100 [] []) 32 0x41f00200 (fun t =>
      t.reg 15 == 0x0104 && t.psw.cc.bits == 0 && t.psw.LOC == 0x0200) = true := by decide

/-- FV1: LER 2,4. -/
theorem test_FV1_ler :
    runs (board 0x0000 0x3000 [] [(0x0008, 0x4100), (0x000a, 0x1000)]) 16 0x2824 (fun t =>
      t.halfAt 0 0x0004 == 0x3f10 && t.halfAt 0 0x0006 == 0x0000 && !t.psw.cc.V && t.psw.cc.G && !t.psw.cc.L &&
        t.psw.LOC == 0x3002) = true := by decide

/-- FV4: LE 0,X'0100'. -/
theorem test_FV4_le :
    runs (board 0x0000 0x3000 [] [(0x0100, 0x0101), (0x0102, 0x2345)]) 32 0x68000100 (fun t =>
      t.halfAt 0 0x0000 == 0x0012 && t.halfAt 0 0x0002 == 0x3450 && !t.psw.cc.V && t.psw.cc.G && !t.psw.cc.L &&
        t.psw.LOC == 0x3004) = true := by decide

/-- FV5: LE 0,X'0100'. -/
theorem test_FV5_le :
    runs (board 0x0000 0x3000 [] [(0x0100, 0x0001), (0x0102, 0x2345)]) 32 0x68000100 (fun t =>
      t.halfAt 0 0x0000 == 0x0000 && t.halfAt 0 0x0002 == 0x0000 && t.psw.cc.V && !t.psw.cc.G && !t.psw.cc.L &&
        t.psw.LOC == 0x3004) = true := by decide

/-- FV6: STE 2,X'0100'. -/
theorem test_FV6_ste :
    runs (board 0x0000 0x3000 [] [(0x0004, 0x4110), (0x0006, 0x0000)]) 32 0x60200100 (fun t =>
      t.halfAt 0 0x0100 == 0x4110 && t.halfAt 0 0x0102 == 0x0000 && t.psw.LOC == 0x3004) = true := by decide

/-- FV10: AER 0,2. -/
theorem test_FV10_aer :
    runs (board 0x0000 0x3000 [] [(0x0000, 0x4110), (0x0002, 0x0000), (0x0004, 0x3a10), (0x0006, 0x0000)]) 16 0x2a02
      (fun t =>
      t.halfAt 0 0x0000 == 0x4110 && t.halfAt 0 0x0002 == 0x0000 && !t.psw.cc.V && t.psw.cc.G && !t.psw.cc.L &&
        t.psw.LOC == 0x3002) = true := by decide

/-- FV7: AER 0,2. -/
theorem test_FV7_aer :
    runs (board 0x0000 0x3000 [] [(0x0000, 0x41f0), (0x0002, 0x0000), (0x0004, 0x4110), (0x0006, 0x0000)]) 16 0x2a02
      (fun t =>
      t.halfAt 0 0x0000 == 0x4210 && t.halfAt 0 0x0002 == 0x0000 && !t.psw.cc.V && t.psw.cc.G && !t.psw.cc.L &&
        t.psw.LOC == 0x3002) = true := by decide

/-- FV11: AE 0,X'0100'. -/
theorem test_FV11_ae :
    runs (board 0x0000 0x3000 [] [(0x0000, 0x7ff0), (0x0002, 0x0000), (0x0100, 0x7ff0), (0x0102, 0x0000)]) 32
      0x6a000100 (fun t =>
      t.halfAt 0 0x0000 == 0x7fff && t.halfAt 0 0x0002 == 0xffff && t.psw.cc.V && t.psw.cc.G && !t.psw.cc.L &&
        t.psw.LOC == 0x3004) = true := by decide

/-- FV16: SER 0,2. -/
theorem test_FV16_ser :
    runs (board 0x0000 0x3000 [] [(0x0000, 0x0010), (0x0002, 0x0001), (0x0004, 0x0010), (0x0006, 0x0000)]) 16 0x2b02
      (fun t =>
      t.halfAt 0 0x0000 == 0x0000 && t.halfAt 0 0x0002 == 0x0000 && t.psw.cc.V && !t.psw.cc.G && !t.psw.cc.L &&
        t.psw.LOC == 0x3002) = true := by decide

/-- FV13: SER 0,2. -/
theorem test_FV13_ser :
    runs (board 0x0000 0x3000 [] [(0x0000, 0x4110), (0x0002, 0x0000), (0x0004, 0x4120), (0x0006, 0x0000)]) 16 0x2b02
      (fun t =>
      t.halfAt 0 0x0000 == 0xc110 && t.halfAt 0 0x0002 == 0x0000 && !t.psw.cc.V && !t.psw.cc.G && t.psw.cc.L &&
        t.psw.LOC == 0x3002) = true := by decide

/-- FV14: SE 0,X'0100'. -/
theorem test_FV14_se :
    runs (board 0x0000 0x3000 [] [(0x0000, 0x4110), (0x0002, 0x0000), (0x0100, 0x4080), (0x0102, 0x0000)]) 32
      0x6b000100 (fun t =>
      t.halfAt 0 0x0000 == 0x4080 && t.halfAt 0 0x0002 == 0x0000 && !t.psw.cc.V && t.psw.cc.G && !t.psw.cc.L &&
        t.psw.LOC == 0x3004) = true := by decide

/-- FV18: CER 0,2. -/
theorem test_FV18_cer :
    runs (board 0x0000 0x3000 [] [(0x0000, 0x4210), (0x0002, 0x0000), (0x0004, 0x41f0), (0x0006, 0x0000)]) 16 0x2902
      (fun t =>
      !t.psw.cc.C && t.psw.cc.G && !t.psw.cc.L && t.psw.LOC == 0x3002) = true := by decide

/-- FV19: CE 0,X'0100'. -/
theorem test_FV19_ce :
    runs (board 0x0000 0x3000 [] [(0x0000, 0x4110), (0x0002, 0x0000), (0x0100, 0x4110), (0x0102, 0x0000)]) 32
      0x69000100 (fun t =>
      !t.psw.cc.C && !t.psw.cc.G && !t.psw.cc.L && t.psw.LOC == 0x3004) = true := by decide

/-- FV22: MER 0,2. -/
theorem test_FV22_mer :
    runs (board 0x0000 0x3000 [] [(0x0000, 0xc118), (0x0002, 0x0000), (0x0004, 0x4128), (0x0006, 0x0000)]) 16 0x2c02
      (fun t =>
      t.halfAt 0 0x0000 == 0xc13c && t.halfAt 0 0x0002 == 0x0000 && !t.psw.cc.V && !t.psw.cc.G && t.psw.cc.L &&
        t.psw.LOC == 0x3002) = true := by decide

/-- FV26: MER 0,2. -/
theorem test_FV26_mer :
    runs (board 0x0000 0x3000 [] [(0x0000, 0x0010), (0x0002, 0x0000), (0x0004, 0x0010), (0x0006, 0x0000)]) 16 0x2c02
      (fun t =>
      t.halfAt 0 0x0000 == 0x0000 && t.halfAt 0 0x0002 == 0x0000 && t.psw.cc.V && !t.psw.cc.G && !t.psw.cc.L &&
        t.psw.LOC == 0x3002) = true := by decide

/-- FV24: ME 0,X'0100'. -/
theorem test_FV24_me :
    runs (board 0x0000 0x3000 [] [(0x0000, 0x7f80), (0x0002, 0x0000), (0x0100, 0x4110), (0x0102, 0x0000)]) 32
      0x6c000100 (fun t =>
      t.halfAt 0 0x0000 == 0x7fff && t.halfAt 0 0x0002 == 0xffff && t.psw.cc.V && t.psw.LOC == 0x3004) = true := by
        decide

/-- FV29: DER 0,2. -/
theorem test_FV29_der :
    runs (board 0x0000 0x3000 [] [(0x0000, 0x41a0), (0x0002, 0x0000), (0x0004, 0x4140), (0x0006, 0x0000)]) 16 0x2d02
      (fun t =>
      t.halfAt 0 0x0000 == 0x4128 && t.halfAt 0 0x0002 == 0x0000 && t.psw.cc.bits == 2 && t.psw.LOC == 0x3002) =
        true := by decide

/-- FV34: DER 0,2. -/
theorem test_FV34_der :
    runs (board 0x0000 0x3000 [] [(0x0000, 0x0010), (0x0002, 0x0000), (0x0004, 0x7f10), (0x0006, 0x0000)]) 16 0x2d02
      (fun t =>
      t.halfAt 0 0x0000 == 0x0000 && t.halfAt 0 0x0002 == 0x0000 && t.psw.cc.bits == 4 && t.psw.LOC == 0x3002) =
        true := by decide

/-- FV32: DE 0,X'0100'. -/
theorem test_FV32_de :
    runs (board 0x0000 0x3000 [] [(0x0000, 0x4110), (0x0002, 0x0000), (0x0100, 0x0000), (0x0102, 0x0000)]) 32
      0x6d000100 (fun t =>
      t.psw.cc.bits == 12 && t.psw.LOC == 0x3004) = true := by decide

/-- FV37: LFR 2,4. -/
theorem test_FV37_lfr :
    runs (board 0x0000 0x3000 [] []) 16 0x3824 (fun t =>
      t.psw.cc.bits == 0 && t.psw.LOC == 0x3002) = true := by decide

/-- FV38: LF 2,X'0100'. -/
theorem test_FV38_lf :
    runs (board 0x0000 0x3000 [] []) 32 0x78200100 (fun t =>
      t.psw.cc.bits == 0 && t.psw.LOC == 0x3004) = true := by decide

/-! ## Vectors with memory outside bank 0, and memory forms of the programs of section 3 -/

/-- A board with a halfword at X'0022' of each bank, the operand bank 3. -/
def banked : State :=
  ((((board 0x0030 0x3000 [(1, 0x5a5a)] []).setHalf 0 0x0022 0x0400).setHalf 1 0x0022 0x8401).setHalf 2 0x0022
    0x0000).setHalf 3 0x0022 0x9999

/-- LV18: LH0 1,X'0022'. -/
theorem test_LV18_lh0 : runs banked 32 0x74100022 (fun t =>
    t.reg 1 == 0x0400 && t.psw.cc.G && !t.psw.cc.L && t.psw.LOC == 0x3004) = true := by decide

/-- LH1 1,X'0022' (rule R129). -/
theorem test_lh1 : runs banked 32 0x75100022 (fun t =>
    t.reg 1 == 0x8401 && !t.psw.cc.G && t.psw.cc.L && t.psw.LOC == 0x3004) = true := by decide

/-- LH2 1,X'0022' (rule R130). -/
theorem test_lh2 : runs banked 32 0x76100022 (fun t =>
    t.reg 1 == 0x0000 && !t.psw.cc.G && !t.psw.cc.L && t.psw.LOC == 0x3004) = true := by decide

/-- LH3 1,X'0022' (rule R131). -/
theorem test_lh3 : runs { banked with psw := { banked.psw with OB := 0 } } 32 0x77100022 (fun t =>
    t.reg 1 == 0x9999 && t.psw.cc.L) = true := by decide

/-- STH0 1,X'1000' (rule R135). -/
theorem test_sth0 : runs banked 32 0xf8101000 (fun t =>
    t.halfAt 0 0x1000 == 0x5a5a && t.halfAt 3 0x1000 == 0 && t.psw.cc == banked.psw.cc) = true := by decide

/-- STH1 1,X'1000' (rule R136). -/
theorem test_sth1 : runs banked 32 0xf9101000 (fun t =>
    t.halfAt 1 0x1000 == 0x5a5a && t.halfAt 3 0x1000 == 0) = true := by decide

/-- LV19: STH2 1,X'1000'. -/
theorem test_LV19_sth2 : runs (board 0x0000 0x3000 [(1, 0x5a5a)] []) 32 0xfa101000 (fun t =>
    t.halfAt 2 0x1000 == 0x5a5a && t.halfAt 0 0x1000 == 0 && t.psw.LOC == 0x3004) = true := by decide

/-- STH3 1,X'1000' (rule R138). -/
theorem test_sth3 : runs (board 0x0000 0x3000 [(1, 0x5a5a)] []) 32 0xfb101000 (fun t =>
    t.halfAt 3 0x1000 == 0x5a5a && t.halfAt 0 0x1000 == 0) = true := by decide

/-- Programs P2: LDP 2,X'0130'. -/
theorem test_P2_ldp : runs (board 0 0x3000 [] [(0x0130, 0x0001), (0x0132, 0xffff)]) 32 0x58200130 (fun t =>
    t.reg 2 == 0x0001 && t.reg 3 == 0xffff && t.psw.cc.G && !t.psw.cc.L) = true := by decide

/-- Program P2, step 3: AH 1,X'0136'. -/
theorem test_P2_ah : runs (board 0 0x0108 [(1, 0xffff), (2, 1)] [(0x0134, 0x0002), (0x0136, 0x0001)]) 32 0x4a100136
    (fun t => t.reg 1 == 0x0000 && t.psw.cc.bits == 8 && t.psw.LOC == 0x010c) = true := by decide

/-- Program P2, step 4: ACH 2,X'0134', the carry added. -/
theorem test_P2_ach : runs (board 0x0008 0x010c [(2, 1)] [(0x0134, 0x0002)]) 32 0x4e200134 (fun t =>
    t.reg 2 == 0x0004 && t.psw.cc.bits == 2 && t.psw.LOC == 0x0110) = true := by decide

/-- SH 1,X'0050': 1 - 2 borrows (rule R151). -/
theorem test_sh : runs (board 0 0x3000 [(1, 1)] [(0x0050, 2)]) 32 0x4b100050 (fun t =>
    t.reg 1 == 0xffff && t.psw.cc.bits == 9) = true := by decide

/-- SCH 1,X'0050' with the borrow in: X'8000' - 0 - 1 overflows (rule R151). -/
theorem test_sch : runs (board 0x0008 0x3000 [(1, 0x8000)] []) 32 0x4f100050 (fun t =>
    t.reg 1 == 0x7fff && t.psw.cc.bits == 6) = true := by decide

/-! ## System control: vectors YV1 to YV14 -/

/-- YV1: LPSW X'0096'. -/
theorem test_YV1_lpsw : runs (board 0 0x3000 [] [(0x0096, 0x8003), (0x0098, 0x1234)]) 32 0xc2000096 (fun t =>
    t.psw.full == 0x80031234 && t.psw.control.WT) = true := by decide

/-- YV2: LPSW in Protect Mode (vector EV2). -/
theorem test_YV2_lpsw : runs (board 0x0100 0x0300 [] [(0x0036, 0x0400)]) 32 0xc2000200 (fun t =>
    t.halfAt 0 0x0030 == 0x0100 && t.halfAt 0 0x0032 == 0x0300 && t.psw.full == 0x00000400) = true := by decide

/-- YV3: EPSR 1,2. -/
theorem test_YV3_epsr : runs (board 0x4008 0x0100 [] []) 16 0x9512 (fun t =>
    t.reg 1 == 0x4008 && t.psw.full == 0x00000102) = true := by decide

/-- YV4: EPSR 3,3. -/
theorem test_YV4_epsr : runs (board 0x4008 0x0100 [] []) 16 0x9533 (fun t =>
    t.reg 3 == 0x4008 && t.psw.status == 0x4008) = true := by decide

/-- YV6: SINT X'0005'. -/
theorem test_YV6_sint : runs (board 0x5000 0x0400 [] [(0x00da, 0x0300)]) 32 0xe2000005 (fun t =>
    t.halfAt 0 0x0300 == 0x5000 && t.halfAt 0 0x0302 == 0x0404 && t.psw.full == 0x00000306) = true := by decide

/-- YV7: SINT X'0105'. -/
theorem test_YV7_sint : runs (board 0x5000 0x0400 [] [(0x00da, 0x0300)]) 32 0xe2000105 (fun t =>
    t.halfAt 0 0x0300 == 0x5000 && t.halfAt 0 0x0302 == 0x0404 && t.psw.full == 0x00000306) = true := by decide

/-- YV8: SVC 3,X'0500'. -/
theorem test_YV8_svc : runs (board 0x0102 0x2000 [] [(0x009a, 0x4000), (0x00a2, 0x0800)]) 32 0xe1300500 (fun t =>
    t.halfAt 0 0x0094 == 0x0500 && t.halfAt 0 0x0096 == 0x0102 && t.halfAt 0 0x0098 == 0x2004 &&
      t.psw.full == 0x40000800) = true := by decide

/-- YV9: SVC 0,X'0010'(2). -/
theorem test_YV9_svc : runs (board 0 0x0200 [(2, 0x0100)] [(0x009c, 0x0600)]) 32 0xe1020010 (fun t =>
    t.halfAt 0 0x0094 == 0x0110 && t.halfAt 0 0x0098 == 0x0204 && t.psw.full == 0x00000600) = true := by decide

/-- YV10: EPOR 5,0. -/
theorem test_YV10_epor : runs (board 0x4108 0x3000 [(5, 0x0020)] []) 16 0x2e50 (fun t =>
    t.reg 5 == 0x4108 && t.psw.status == 0x4128 && t.psw.LOC == 0x3002) = true := by decide

/-- YV11: EPPR 6,0. -/
theorem test_YV11_eppr : runs (board 0 0x0100 [(6, 0x0050), (7, 0x3000)] []) 16 0x2f60 (fun t =>
    t.psw.full == 0x00503000 && t.reg 6 == 0x0000 && t.reg 7 == 0x0102) = true := by decide

/-- YV12: SESB X'4000'. -/
theorem test_YV12_sesb : runs (board 0x0002 0x3000 [] []) 32 0xe4004000 (fun t =>
    t.psw.full == 0x40023004) = true := by decide

/-- YV13: RESB X'4800'. -/
theorem test_YV13_resb : runs (board 0x4802 0x3000 [] []) 32 0xe3004800 (fun t =>
    t.psw.full == 0x00023004) = true := by decide

/-- YV14: SESB X'00FF'. -/
theorem test_YV14_sesb : runs (board 0x0002 0x3000 [] []) 32 0xe40000ff (fun t =>
    t.psw.full == 0x00023004) = true := by decide

/-! ## Input/output: vectors IV1 to IV13 and the rules they do not reach -/

/-- A board whose device X'15' requests service with a status. -/
def requesting (status loc : Half) (mem : List (Half × Half)) (st : Byte) : State :=
  let s := board status loc [] mem
  { s with env := { s.env with acks := [some (0x15, st)] } }

/-- IV1: AIR 2,3. -/
theorem test_IV1_air : runs (requesting 0 0x3000 [] 0x00) 16 0x9f23 (fun t =>
    t.reg 2 == 0x0015 && t.reg 3 == 0 && t.psw.cc.bits == 0 && t.env.acks == [] && t.env.calls == [.acknowledge])
    = true := by decide

/-- IV2: AIR 2,3, no device requesting. -/
theorem test_IV2_air : runs (board 0 0x3000 [] []) 16 0x9f23 (fun t => t.psw.cc.V && t.psw.LOC == 0x3002) = true := by
  decide

/-- IV3: AI 2,X'0100'. -/
theorem test_IV3_ai : runs (requesting 0 0x3000 [] 0x10) 32 0xdf200100 (fun t =>
    t.reg 2 == 0x0015 && t.byteAt 0 0x0100 == 0x10 && t.psw.cc.bits == 0) = true := by decide

/-- IV4: SSR 1,4. -/
theorem test_IV4_ssr : runs (answering (board 0 0x3000 [(1, 2)] []) [0x08] []) 16 0x9d14 (fun t =>
    t.reg 4 == 0x0008 && t.psw.cc.bits == 8 && t.env.calls == [.status 2, .select 2]) = true := by decide

/-- IV5: SSR 1,4. -/
theorem test_IV5_ssr : runs (answering (board 0 0x3000 [(1, 2)] []) [0x05] []) 16 0x9d14 (fun t =>
    t.reg 4 == 0x0005 && t.psw.cc.bits == 5) = true := by decide

/-- IV6: SS 1,X'0101'. -/
theorem test_IV6_ss : runs (answering (board 0 0x3000 [(1, 2)] []) [0x04] []) 32 0xdd100101 (fun t =>
    t.byteAt 0 0x0101 == 0x04 && t.psw.cc.bits == 4) = true := by decide

/-- IV7: OCR 1,2. -/
theorem test_IV7_ocr : runs (answering (board 0 0x3000 [(1, 2), (2, 0x0040)] []) [] []) 16 0x9e12 (fun t =>
    t.env.calls == [.command 2 0x40, .select 2] && !t.psw.cc.V) = true := by decide

/-- OC 1,X'0050' (rule R339). -/
theorem test_oc : runs (answering (board 0 0x3000 [(1, 2)] [(0x0050, 0x4100)]) [] []) 32 0xde100050 (fun t =>
    t.env.calls == [.command 2 0x41, .select 2] && !t.psw.cc.V) = true := by decide

/-- IV8: RDR 1,5. -/
theorem test_IV8_rdr : runs (answering (board 0 0x3000 [(1, 2), (5, 0x7700)] []) [] [0xc1]) 16 0x9b15 (fun t =>
    t.reg 5 == 0x00c1 && !t.psw.cc.V) = true := by decide

/-- RD 1,X'0051' (rule R341). -/
theorem test_rd : runs (answering (board 0 0x3000 [(1, 2)] []) [] [0xc1]) 32 0xdb100051 (fun t =>
    t.halfAt 0 0x0050 == 0x00c1 && !t.psw.cc.V) = true := by decide

/-- IV10: WDR 1,2. -/
theorem test_IV10_wdr : runs (answering (board 0 0x3000 [(1, 2), (2, 0x1241)] []) [] []) 16 0x9a12 (fun t =>
    t.env.calls == [.write 2 0x41, .select 2] && !t.psw.cc.V) = true := by decide

/-- WD 1,X'0051' (rule R343). -/
theorem test_wd : runs (answering (board 0 0x3000 [(1, 2)] [(0x0050, 0x1241)]) [] []) 32 0xda100051 (fun t =>
    t.env.calls == [.write 2 0x41, .select 2] && !t.psw.cc.V) = true := by decide

/-- RHR 1,5 (rule R344). -/
theorem test_rhr : runs (answering (board 0 0x3000 [(1, 2)] []) [] []) 16 0x9915 (fun t =>
    t.reg 5 == 0xc1c2 && t.env.calls == [.readHalf 2, .select 2] && !t.psw.cc.V) = true := by decide

/-- RH 1,X'0050' (rule R345). -/
theorem test_rh : runs (answering (board 0 0x3000 [(1, 2)] []) [] []) 32 0xd9100050 (fun t =>
    t.halfAt 0 0x0050 == 0xc1c2 && !t.psw.cc.V) = true := by decide

/-- WHR 1,2 (rule R346). -/
theorem test_whr : runs (answering (board 0 0x3000 [(1, 2), (2, 0x1241)] []) [] []) 16 0x9812 (fun t =>
    t.env.calls == [.writeHalf 2 0x1241, .select 2] && !t.psw.cc.V) = true := by decide

/-- WH 1,X'0050' (rule R347). -/
theorem test_wh : runs (answering (board 0 0x3000 [(1, 2)] [(0x0050, 0x1241)]) [] []) 32 0xd8100050 (fun t =>
    t.env.calls == [.writeHalf 2 0x1241, .select 2] && !t.psw.cc.V) = true := by decide

/-- IV11: RBR 1,2. -/
theorem test_IV11_rbr :
    runs (answering (board 0 0x3000 [(1, 5), (2, 0x1000), (3, 0x1003)] []) [0, 0, 0, 0] [0x41, 0x42, 0x43, 0x44]) 16
      0x9712 (fun t => t.fullAt 0 0x1000 == 0x41424344 && t.psw.cc.bits == 0 && t.psw.LOC == 0x3002) = true := by
  decide

/-- IV12: RBR 1,2. -/
theorem test_IV12_rbr : runs (board 0 0x3000 [(1, 5), (2, 0x1004), (3, 0x1003)] []) 16 0x9712 (fun t =>
    t.psw.cc.bits == 0 && t.env.calls == []) = true := by decide

/-- RB 1,X'0050': the second status ends the transfer after one byte (rules R348, R350). -/
theorem test_rb :
    runs (answering (board 0 0x3000 [(1, 5)] [(0x0050, 0x1000), (0x0052, 0x1003)]) [0, 0x04] [0x41, 0x42]) 32
      0xd7100050 (fun t => t.fullAt 0 0x1000 == 0x41000000 && t.psw.cc.bits == 4) = true := by decide

/-- WBR 1,2 (rule R351). -/
theorem test_wbr :
    runs (answering (board 0 0x3000 [(1, 5), (2, 0x1000), (3, 0x1001)] [(0x1000, 0x4142)]) [0, 0] []) 16 0x9612
      (fun t => t.env.calls == [.write 5 0x42, .status 5, .write 5 0x41, .status 5, .select 5] &&
        t.psw.cc.bits == 0) = true := by decide

/-- WB 1,X'0050' (rule R352). -/
theorem test_wb :
    runs (answering (board 0 0x3000 [(1, 5)] [(0x0050, 0x1001), (0x0052, 0x1001), (0x1000, 0x4142)]) [0] []) 32
      0xd6100050 (fun t => t.env.calls == [.write 5 0x42, .status 5, .select 5] && t.psw.cc.bits == 0) = true := by
  decide

/-- AL X'0081': a leading zero byte is skipped, two bytes are loaded (rule R353). -/
theorem test_al :
    runs (answering (board 0 0x3000 [] [(0x0078, 0x2a99)]) [0, 0, 0] [0x00, 0x41, 0x42]) 32 0xd5000081 (fun t =>
      t.halfAt 0 0x0080 == 0x4142 && t.psw.cc.bits == 0 && t.psw.LOC == 0x3004) = true := by decide

/-- IV9: RDR 1,5 with no answer, and IV13: in Protect Mode (vector EV2). -/
theorem test_IV9_IV13_rdr :
    runs (board 0 0x3000 [(1, 2)] []) 16 0x9b15 (fun t =>
      t.psw.cc.V && t.psw.LOC == 0x3002 && t.env.calls == [.select 2]) = true ∧
    runs (answering (board 0x0100 0x0300 [(1, 2), (5, 7)] [(0x0036, 0x0400)]) [] [0xc1]) 16 0x9b15 (fun t =>
      t.reg 5 == 7 && t.env.calls == [] && t.fullAt 0 0x0030 == 0x01000300 && t.psw.full == 0x00000400) = true := by
  decide

/-! ## Lists: vectors QV1 to QV10 -/

/-- QV1: ABL 1,X'1000'. -/
theorem test_QV1_abl : runs (board 0 0x3000 [(1, 0xaaaa)] [(0x1000, 0x0400)]) 32 0x65101000 (fun t =>
    t.fullAt 0 0x1000 == 0x04010001 && t.halfAt 0 0x1004 == 0xaaaa && t.psw.cc.bits == 0) = true := by decide

/-- QV2: ATL 1,X'1000'. -/
theorem test_QV2_atl : runs (board 0 0x3000 [(1, 0xbbbb)] [(0x1000, 0x0401), (0x1002, 0x0001)]) 32 0x64101000 (fun t =>
    t.fullAt 0 0x1000 == 0x04020301 && t.halfAt 0 0x100a == 0xbbbb && t.psw.cc.bits == 0) = true := by decide

/-- QV3: RTL 2,X'1000'. -/
theorem test_QV3_rtl :
    runs (board 0 0x3000 [] [(0x1000, 0x0402), (0x1002, 0x0301), (0x100a, 0xbbbb)]) 32 0x66201000 (fun t =>
      t.fullAt 0 0x1000 == 0x04010001 && t.reg 2 == 0xbbbb && t.psw.cc.bits == 2) = true := by decide

/-- QV4: RBL 2,X'1000'. -/
theorem test_QV4_rbl :
    runs (board 0 0x3000 [] [(0x1000, 0x0401), (0x1002, 0x0001), (0x1004, 0xaaaa)]) 32 0x67201000 (fun t =>
      t.fullAt 0 0x1000 == 0x04000000 && t.reg 2 == 0xaaaa && t.psw.cc.bits == 0) = true := by decide

/-- QV6: ATL 1,X'1000'. -/
theorem test_QV6_atl : runs (board 0 0x3000 [(1, 1)] [(0x1000, 0x0404), (0x1002, 0x0202)]) 32 0x64101000 (fun t =>
    t.fullAt 0 0x1000 == 0x04040202 && t.halfAt 0 0x1006 == 0 && t.psw.cc.bits == 4) = true := by decide

/-- QV7: RTL 2,X'1000'. -/
theorem test_QV7_rtl : runs (board 0 0x3000 [(2, 0x7777)] [(0x1000, 0x0400), (0x1002, 0x0101)]) 32 0x66201000 (fun t =>
    t.reg 2 == 0x7777 && t.psw.cc.bits == 4) = true := by decide

/-- QV8: RBL 2,X'1000'. -/
theorem test_QV8_rbl : runs (board 0 0x3000 [] [(0x1000, 0x0400), (0x1002, 0x0101)]) 32 0x67201000 (fun t =>
    t.fullAt 0 0x1000 == 0x04000101 && t.psw.cc.bits == 4) = true := by decide

/-- QV9: ABL 1,X'1000'. -/
theorem test_QV9_abl : runs (board 0 0x3000 [(1, 0xcccc)] [(0x1000, 0x0401), (0x1002, 0x0003)]) 32 0x65101000 (fun t =>
    t.fullAt 0 0x1000 == 0x04020000 && t.halfAt 0 0x100a == 0xcccc && t.psw.cc.bits == 0) = true := by decide

/-! ## The trigonometric option: vectors TV1 to TV11. No operation code: through `exec`, and the bounds alone. -/

/-- A board with a CPR of 28. -/
def precise (regs : List (RegNo × Half)) : State := { board 0 0x3000 regs [] with cpr := .p28 }

/-- TV1: ECPR 1,2. -/
theorem test_TV1_ecpr : ends (exec (.ecpr 1 2) (precise [(2, 0xffe3)])) (fun t =>
    t.cpr == .p16 && t.reg 1 == 0x001c && t.psw.cc == Psw.reset.cc) = true := by decide

/-- TV2: ECPR 1,1. -/
theorem test_TV2_ecpr : ends (exec (.ecpr 1 1) (precise [(1, 0x0004)])) (fun t =>
    t.cpr == .p20 && t.reg 1 == 0x001c) = true := by decide

/-- TV3 and TV4: 2^30 / sqrt 2 is the cosine and the sine of 45 degrees, 1 and 0 those of 0, rounded. -/
theorem test_TV3_cosr : (fixedCosine 0x20000000 + 2 ^ 65) / 2 ^ 66 = 0x2d413ccd ∧
    (fixedSine 0x20000000 + 2 ^ 65) / 2 ^ 66 = 0x2d413ccd ∧ (fixedCosine 0 + 2 ^ 65) / 2 ^ 66 = 0x40000000 ∧
    (fixedSine 0 + 2 ^ 65) / 2 ^ 66 = 0 := by decide

/-- TV5: ASNR 2,4. -/
theorem test_TV5_asnr : ends (exec (.asnr 2 4) (precise [(2, 9), (5, 1), (7, 2)])) (fun t =>
    t.pair 2 == 0x00090000 && t.psw.cc.V) = true := by decide

/-- TV6: the same on zeros, ASN 2,X'0100'. -/
theorem test_TV6_asn : ends (exec (.asn 2 0 0x0100) (precise [(2, 9)])) (fun t =>
    t.pair 2 == 0x00090000 && t.psw.cc.V && t.psw.LOC == 0x3004) = true := by decide

/-- TV7: ATNR 4,8. -/
theorem test_TV7_atnr : ends (exec (.atnr 4 8) (precise [(4, 9), (7, 9)])) (fun t =>
    t.quad 4 == 0 && !t.psw.cc.V) = true := by decide

/-- TV8: ATNR 4,8. -/
theorem test_TV8_atnr :
    ends (exec (.atnr 4 8) (precise [(4, 9), (8, 0x7fff), (9, 0xffff), (10, 0x7fff), (11, 0xffff)])) (fun t =>
      t.quad 4 == 0x0009000000000000 && t.psw.cc.V) = true := by decide

/-- TV9: SQDR 2,4. -/
theorem test_TV9_sqdr : ends (exec (.sqdr 2 4) (precise [(2, 9), (5, 5), (7, 5)])) (fun t =>
    t.pair 2 == 0 && !t.psw.cc.V) = true := by decide

/-- TV10: SQDR 2,4. -/
theorem test_TV10_sqdr : ends (exec (.sqdr 2 4) (precise [(2, 9), (5, 3), (6, 0xffff), (7, 0xfffb)])) (fun t =>
    t.pair 2 == 0x00090000 && t.psw.cc.V) = true := by decide

/-- TV11: the bound. -/
theorem test_TV11_bound : differenceOfSquares 0x00050000 0x00030000 = 0x00040000 ^ 2 ∧
    withinRoot 0x00040017 (differenceOfSquares 0x00050000 0x00030000) (differenceError .p28) = true ∧
    withinRoot 0x00040018 (differenceOfSquares 0x00050000 0x00030000) (differenceError .p28) = false := by decide

/-! ## Augment: vectors AU1 to AU16 -/

/-- AU1: LCHR 1,2. -/
theorem test_AU1_lchr : runs (board 0 0x3000 [(2, 1)] []) 16 0x1212 (fun t =>
    t.reg 1 == 0xffff && t.psw.cc.bits == 9) = true := by decide

/-- AU4: LCHR 1,2. -/
theorem test_AU4_lchr : runs (board 0 0x3000 [(2, 0x8000)] []) 16 0x1212 (fun t =>
    t.reg 1 == 0x8000 && t.psw.cc.bits == 13) = true := by decide

/-- AU5: LCH 1,X'0050'. -/
theorem test_AU5_lch : runs (board 0 0x3000 [] table25) 32 0x53100050 (fun t =>
    t.reg 1 == 0xfedd && t.psw.cc.bits == 9) = true := by decide

/-- AU7: LCNHR 1,2. -/
theorem test_AU7_lcnhr : runs (board 0 0x3000 [(2, 0xfffb)] []) 16 0x1012 (fun t =>
    t.reg 1 == 0x8005 && t.psw.cc.bits == 1) = true := by decide

/-- AU9: LCNHR 1,2. -/
theorem test_AU9_lcnhr : runs (board 0 0x3000 [(2, 0x8000)] []) 16 0x1012 (fun t =>
    t.reg 1 == 0x0000 && t.psw.cc.bits == 8) = true := by decide

/-- AU11: LCNH 1,X'0060'. -/
theorem test_AU11_lcnh : runs (board 0 0x3000 [] [(0x0060, 0xfffb)]) 32 0x51100060 (fun t =>
    t.reg 1 == 0x8005 && t.psw.cc.bits == 1) = true := by decide

/-- AU12: LAVR 1,2. -/
theorem test_AU12_lavr : runs (board 0 0x3000 [(2, 0xfffb)] []) 16 0x1112 (fun t =>
    t.reg 1 == 0x0005 && t.psw.cc.bits == 10) = true := by decide

/-- AU14: LAVR 1,2. -/
theorem test_AU14_lavr : runs (board 0 0x3000 [(2, 0x8000)] []) 16 0x1112 (fun t =>
    t.reg 1 == 0x8000 && t.psw.cc.bits == 13) = true := by decide

/-- AU16: LAV 1,X'0050'. -/
theorem test_AU16_lav : runs (board 0 0x3000 [] table25) 32 0x52100050 (fun t =>
    t.reg 1 == 0x0123 && t.psw.cc.bits == 2) = true := by decide

/-! ## Interrupts: vectors EV1 to EV11 -/

/-- A board with an input of the environment at the next boundary. -/
def given (s : State) (b : Boundary) : State := { s with env := { s.env with inputs := [b] } }

/-- The outcome is this refusal. -/
def refuses (o : Outcome) (why : Refusal) : Bool :=
  match o with
  | .refused r => decide (r = why)
  | _ => false

/-- EV1: an unassigned code, all registers as they were. -/
theorem test_EV1_illegal : ends (step (board 0x0008 0x0200 [] [(0x0036, 0x0400)])) (fun t =>
    t.fullAt 0 0x0030 == 0x00080200 && t.psw.full == 0x00000400 && t.x == State.reset.x) = true := by decide

/-- EV1b: X'FC00'. -/
theorem test_EV1b_illegal : runs (board 0x0008 0x0200 [] [(0x0036, 0x0400)]) 16 0xfc00 (fun t =>
    t.fullAt 0 0x0030 == 0x00080200 && t.psw.full == 0x00000400) = true := by decide

/-- EV3: the divide fault. -/
theorem test_EV3_dhr : runs (board 0x1002 0x0200 [(3, 0x8000), (5, 1)] [(0x004e, 0x0500)]) 16 0x0d25 (fun t =>
    t.fullAt 0 0x0048 == 0x10020202 && t.psw.full == 0x00000500 && t.pair 2 == 0x00008000) = true := by decide

/-- EV4: floating-point divide by zero. -/
theorem test_EV4_de : runs (board 0x0400 0x0200 [] [(0x0000, 0x4110), (0x002e, 0x0500)]) 32 0x6d000100 (fun t =>
    t.fullAt 0 0x0028 == 0x040c0204 && t.psw.full == 0x00000500 && t.fullAt 0 0 == 0x41100000) = true := by decide

/-- EV6: the External interrupt. -/
theorem test_EV6_external :
    ends (step (given (board 0x4002 0x0250 [] [(0x0046, 0x0600)]) { Boundary.quiet with attention := true })) (fun t =>
      t.fullAt 0 0x0040 == 0x40020250 && t.psw.full == 0x00000600 && t.env.calls == []) = true := by decide

/-- EV6b: EI reset, the instruction executes. -/
theorem test_EV6b_disabled :
    runs (given (board 0x0002 0x0250 [] []) { Boundary.quiet with attention := true }) 16 0x2415 (fun t =>
      t.reg 1 == 5 && t.psw.LOC == 0x0252) = true := by decide

/-- EV7: the Immediate Interrupt. -/
theorem test_EV7_immediate :
    ends (step (given (requesting 0x4800 0x0250 [(0x00fa, 0x0300)] 0x00) { Boundary.quiet with attention := true }))
      (fun t => t.fullAt 0 0x0300 == 0x48000250 && t.psw.full == 0x00000306 && t.env.acks == []) = true := by decide

/-- EV7b: a Channel Command Word. -/
theorem test_EV7b_channel :
    refuses (step (given (requesting 0x4800 0x0250 [(0x00fa, 0x0301)] 0x00) { Boundary.quiet with attention := true }))
      .channelCommandWord = true := by decide

/-- EV8: the Advance Power Failure. -/
theorem test_EV8_powerFailure :
    ends (step (given (board 0x2000 0x0250 [] [(0x003e, 0x0700)]) { Boundary.quiet with power := .advanceFailure }))
      (fun t => t.fullAt 0 0x0038 == 0x20000250 && t.psw.full == 0x00010700) = true := by decide

/-- EV8b: parity errors. -/
theorem test_EV8b_parity :
    let at_ := fun p => ends (step (given (board 0x2000 0x0250 [] [(0x003e, 0x0700)])
      { Boundary.quiet with parity := p }))
    at_ .operandRead (fun t => t.psw.full == 0x00040700) = true ∧
      at_ .instructionRead (fun t => t.psw.full == 0x00020700) = true := by decide

/-- EV9: an interrupt taken from the wait state. -/
theorem test_EV9_wait :
    ends (step (given (board 0xc000 0x0104 [] []) { Boundary.quiet with attention := true })) (fun t =>
      t.fullAt 0 0x0040 == 0xc0000104) = true := by decide

/-- EV10: the end of a run. -/
theorem test_EV10_ended : ends (step (board 0x8000 0x0114 [] [])) (fun t => t == board 0x8000 0x0114 [] []) = true := by
  decide

/-- EV11: the restart. -/
theorem test_EV11_restart :
    ends (step { given (board 0x8000 0 [] [(0x0022, 0x0400), (0x0400, 0x1111), (0x041e, 0x2222), (0x0026, 0x0250)])
        { Boundary.quiet with power := .restored true } with power := .standBy }) (fun t =>
      t.reg 0 == 0x1111 && t.reg 15 == 0x2222 && t.psw.full == 0x00000250 && t.power == .operational) = true := by
  decide

/-- EV11b: the restart that takes the Machine Malfunction. -/
theorem test_EV11b_restart :
    ends (step { given (board 0 0 [] [(0x0022, 0x0400), (0x0024, 0x2000), (0x0026, 0x0250), (0x003e, 0x0700)])
        { Boundary.quiet with power := .restored true } with power := .standBy }) (fun t =>
      t.fullAt 0 0x0038 == 0x20000250 && t.psw.full == 0x00000700) = true := by decide

/-! ## The assembler: Table 2-4 and the examples below it (95_test_vectors.md S4) -/

/-- BE X'0120', BNER 5, BR 15, NOP and NOPR. -/
theorem test_S4_long : encode (ExtendedBranch.be.rx 0 0x0120) = some [0x43, 0x30, 0x01, 0x20] ∧
    encode (ExtendedBranch.bne.rr 5) = some [0x02, 0x35] ∧ encode (ExtendedBranch.b.rr 15) = some [0x03, 0x0f] ∧
    encode (ExtendedBranch.nop.rx 0 0) = some [0x42, 0x00, 0x00, 0x00] ∧
    encode (ExtendedBranch.nop.rr 0) = some [0x02, 0x00] := by decide

/-- BCS 3 and BS 2, backward and forward. -/
theorem test_S4_short : (ExtendedBranch.bc.short true 3).bind encode = some [0x20, 0x83] ∧
    (ExtendedBranch.bc.short false 3).bind encode = some [0x21, 0x83] ∧
    (ExtendedBranch.b.short true 2).bind encode = some [0x22, 0x02] ∧
    (ExtendedBranch.b.short false 2).bind encode = some [0x23, 0x02] ∧ ExtendedBranch.nop.short true 2 = none :=
      by decide

/-- THI 3,X'0200', LH 1,X'0050'(2) and LPSW X'0096'. -/
theorem test_source : (Instr.thi 3 0 0x0200).source = ⟨"THI", [.number 3, .indexed 0x0200 none]⟩ ∧
    (Instr.lh 1 2 0x0050).source = ⟨"LH", [.number 1, .indexed 0x0050 (some 2)]⟩ ∧
    (Instr.lpsw 0 0 0x0096).source = ⟨"LPSW", [.indexed 0x0096 none]⟩ := ⟨rfl, rfl, rfl⟩

/-! ## Other agents, fitted memory, parameters and runs (20_memory.md rules R62, R76, 00_scope.md rule R4) -/

/-- LDP 2,X'0130' torn: another agent writes the whole fullword between the two transfers (rule R68). The first two
groups of writes come before the two transfers of the fetch. -/
theorem test_torn_ldp :
    let s := board 0 0x3000 [] [(0x0130, 0x0001), (0x0132, 0xffff)]
    runs { s with env := { s.env with transfers := [[], [], [], [⟨0x0130, 0xaa⟩, ⟨0x0132, 0xbb⟩]] } } 32 0x58200130
      (fun t => t.pair 2 == 0x0001bbff && t.halfAt 0 0x0130 == 0xaa01) = true := by decide

/-- AHM 1,X'0100': what another agent writes between the read and the write is overwritten (rule R78). -/
theorem test_between_ahm :
    let s := board 0 0x3000 [(1, 1)] [(0x0100, 0x0005)]
    runs { s with env := { s.env with transfers := [[], [], [], [⟨0x0101, 0x77⟩, ⟨0x0102, 0x88⟩]] } } 32 0x61100100
      (fun t => t.halfAt 0 0x0100 == 0x0006 && t.halfAt 0 0x0102 == 0x8800) = true := by decide

/-- A board with memory from X'0100' to X'01FF' alone, of which the last two bytes are read-only. -/
def sparse (a : Half) : State :=
  { board 0 0x3000 [(1, a)] [] with
    install := { Config.Installation.standard with present := [⟨0x0100, 0x0100⟩], readOnly := [⟨0x01fe, 2⟩] } }

/-- LB 2,X'0200': no memory. -/
theorem test_absent_lb : refuses (exec (.lb 2 0 0x0200) (sparse 0)) .absentMemory = true := by decide

/-- STH 1,X'01FE', where the store is ignored, and STH 1,X'01FC', just below. -/
theorem test_readOnly_sth :
    ends (exec (.sth 1 0 0x01fe) (sparse 0x1234)) (fun t => t.halfAt 0 0x01fe == 0 && t.psw.LOC == 0x3004) = true ∧
    ends (exec (.sth 1 0 0x01fc) (sparse 0x1234)) (fun t => t.halfAt 0 0x01fc == 0x1234) = true := by decide

/-- ME 0,X'0100' on an operand that is not normalized, PSW.FP set: no interrupt (rule R282). -/
theorem test_unnormalized_me : ends (exec (.me 0 0 0x0100) (board 0x0400 0x0200 [] [(0x0000, 0x7f0f), (0x0100,
  0x7ff0)]))
    (fun t => t.psw.LOC == 0x0204) = true := by decide

/-- BXH 1,X'0100' with BX_COMPARE signed: X'8001' is below the limit 5. -/
theorem test_signed_bxh :
    let s := board 0 0x3000 [(1, 0x8000), (2, 1), (3, 5)] []
    ends (exec (.bxh 1 0 0x0100) { s with install := { s.install with indexCompare := .signed } }) (fun t =>
      t.reg 1 == 0x8001 && t.psw.LOC == 0x3004) = true := by decide

/-- MHR 2,6 with MH_MULTIPLICAND R1+1. -/
theorem test_second_mhr :
    let s := board 0 0x3000 [(2, 3), (3, 5), (6, 7)] []
    ends (exec (.mhr 2 6) { s with install := { s.install with multiplicand := .second } }) (fun t =>
      t.pair 2 == 35) = true := by decide

/-- AI 2,X'0100' with no device requesting now and one requesting later (rule R332). -/
theorem test_later_ai :
    let s := board 0 0x3000 [] []
    runs { s with env := { s.env with acks := [none, some (0x15, 0x10)] } } 32 0xdf200100 (fun t =>
      t.psw.cc.V && t.env.acks == [some (0x15, 0x10)]) = true := by decide

/-- The range of an arc sine is kept: the candidate one above 90 degrees is not taken (rule R375). -/
theorem test_range_arcSine : boundedArcSine (2 ^ 30 + 1) 1 1 (arcSineError .p16) = 0x40000000 ∧
    boundedArcSine (2 ^ 30 - 1) 1 1 (arcSineError .p16) = 0x3fffffff := by decide +kernel

/-- The arc tangent of 1 over -1, quadrant resolved and not: 135 and -45 degrees; that of -5 over 0: -90 degrees, though
the candidate is 90 (rule R377). -/
theorem test_quadrant_arcTangent : boundedArcTangent .resolved (-(2 ^ 29)) 1 (-1) 0 = 0x60000000 ∧
    boundedArcTangent .principal (-(2 ^ 29)) 1 (-1) 0 = 0xe0000000 ∧
    boundedArcTangent .resolved (2 ^ 30) (-5) 0 (arcTangentError .p16) = 0xc0000000 := by decide +kernel

/-- A run from a launch: LIS 1,5 and LPSW X'0200' into a wait state with no interrupt enabled (70_reset_and_hazards.md
rules R451, R464). -/
theorem test_launch_run :
    let image := [(0x00100, 0x24), (0x00101, 0x15), (0x00102, 0xc2), (0x00104, 0x02), (0x00200, 0x80)]
    ((launch Config.Installation.standard image (Vector.replicate 16 0) Psw.reset .p28 Env.quiet).map fun s =>
      match run 3 s with
      | .ended t => t.observables.regs[1] == 5 && t.observables.psw.full == 0x80000000
      | _ => false) = some true := by decide

/-! ## Witnesses: for each obligation with hypotheses, a state and operands that meet them, clause by clause, at
boundary
values -/

/-- X'FFFE', the last even address, as an effective address with indexing. -/
def edge (status : Half) (regs : List (RegNo × Half)) (mem : List (Half × Half)) : State :=
  board status 0x3000 ((1, 0xfffc) :: regs) mem

theorem edge_even : EvenAddress ((edge 0 [] []).ea 1 2) ∧ (edge 0 [] []).ea 1 2 = 0xfffe := ⟨rfl, rfl⟩

/-- Odd addresses are the others. -/
theorem edge_odd : ¬EvenAddress ((edge 0 [] []).ea 1 3) := by unfold EvenAddress; decide

/-- No other agent writes and the installation is the default one. -/
theorem undisturbed_of {s : State} (h : s.env.transfers = []) (h' : s.install = Config.Installation.standard) :
    Undisturbed s := ⟨h, h' ▸ standard_fitted⟩

theorem edge_undisturbed : Undisturbed (edge 0 [] []) := undisturbed_of rfl rfl

theorem witness_ImmediateAndRegisterLoads : EvenReg 14 ∧ EvenReg 0 := ⟨rfl, rfl⟩

theorem witness_MemoryLoads : Undisturbed (edge 0 [] []) ∧ EvenAddress ((edge 0 [] []).ea 1 2) ∧ EvenReg 14 :=
  ⟨edge_undisturbed, rfl, rfl⟩

theorem witness_MultipleTransfers : Undisturbed (edge 0 [] []) ∧ EvenAddress ((edge 0 [] []).ea 1 2) ∧
    (15 : RegNo).toNat ≤ (15 : RegNo).toNat ∧ (14 : RegNo).toNat < (15 : RegNo).toNat :=
  ⟨edge_undisturbed, rfl, by decide, by decide⟩

/-- Another agent that writes before each of the first two transfers, the second time over the byte it wrote first. -/
def disturbed : State :=
  let s := edge 0 [(14, 0x1234), (15, 0x5678)] []
  { s with env := { s.env with transfers := [[⟨0xfffe, 0x11⟩], [⟨0xfffe, 0x22⟩, ⟨0x0000, 0x33⟩]] } }

theorem witness_HalfwordTransfersInterleave :
    (∀ p < 262144, isWritable disturbed.install p = true) ∧
      disturbed.env.transfers = [⟨0xfffe, 0x11⟩] :: [⟨0xfffe, 0x22⟩, ⟨0x0000, 0x33⟩] :: [] ∧
      EvenAddress (disturbed.ea 1 2) ∧ EvenReg 14 := ⟨standard_fitted, rfl, rfl, rfl⟩

theorem witness_OperandStores : Undisturbed (edge 0 [] []) ∧ EvenAddress ((edge 0 [] []).ea 1 2) ∧ EvenReg 14 :=
  ⟨edge_undisturbed, rfl, rfl⟩

theorem witness_HalfwordAdditions : Undisturbed (edge 0 [] []) ∧ EvenAddress ((edge 0 [] []).ea 1 2) :=
  ⟨edge_undisturbed, rfl⟩

theorem witness_HalfwordSubtractions : Undisturbed (edge 0 [] []) ∧ EvenAddress ((edge 0 [] []).ea 1 2) :=
  ⟨edge_undisturbed, rfl⟩

theorem witness_FullwordSums : EvenReg 14 ∧ EvenReg 0 ∧ Undisturbed (edge 0 [] []) ∧
    EvenAddress ((edge 0 [] []).ea 1 2) := ⟨rfl, rfl, edge_undisturbed, rfl⟩

theorem witness_Products : EvenReg 14 ∧ QuadReg 12 ∧ EvenReg 14 ∧ Undisturbed (edge 0 [] []) ∧
    EvenAddress ((edge 0 [] []).ea 1 2) := ⟨rfl, ⟨rfl, by decide⟩, rfl, edge_undisturbed, rfl⟩

/-- 32767 over 1 fits, 32768 over 1 and a zero divisor do not; the fault enabled and not. -/
theorem witness_Quotients :
    let fits := board 0 0x3000 [(3, 0x7fff), (5, 1)] []
    let above := board 0x1000 0x3000 [(3, 0x8000), (5, 1)] []
    let zero := board 0x0000 0x3000 [(3, 0x8000)] []
    (EvenReg 2 ∧ fits.reg 5 ≠ 0 ∧ ((fits.pair 2).toInt.tdiv (fits.reg 5).toInt).natAbs = 32767) ∧
    (¬(above.reg 5 ≠ 0 ∧ ((above.pair 2).toInt.tdiv (above.reg 5).toInt).natAbs ≤ 32767) ∧
      above.psw.control.DF = true) ∧
    (¬(zero.reg 5 ≠ 0 ∧ ((zero.pair 2).toInt.tdiv (zero.reg 5).toInt).natAbs ≤ 32767) ∧
      zero.psw.control.DF = false) ∧ EvenAddress (fits.ea 0 0xfffe) ∧ Undisturbed fits ∧ Undisturbed above :=
  ⟨⟨rfl, by decide, by decide⟩, ⟨by decide, by decide⟩, ⟨by decide, by decide⟩, rfl,
    undisturbed_of rfl rfl, undisturbed_of rfl rfl⟩

/-- 2147483647 over 1 fits, 2147483648 over 1 does not. -/
theorem witness_Quotients_full :
    let fits := board 0 0x3000 [(4, 0x7fff), (5, 0xffff), (7, 1)] []
    let above := board 0x1000 0x3000 [(4, 0x8000), (7, 1)] []
    (QuadReg 2 ∧ EvenReg 6 ∧ fits.pair 6 ≠ 0 ∧
      ((fits.quad 2).toInt.tdiv (fits.pair 6).toInt).natAbs = 2147483647) ∧
    ¬(above.pair 6 ≠ 0 ∧ ((above.quad 2).toInt.tdiv (above.pair 6).toInt).natAbs ≤ 2147483647) :=
  ⟨⟨⟨rfl, by decide⟩, rfl, by decide, by decide⟩, by decide⟩

theorem witness_LogicalResults : Undisturbed (edge 0 [] []) ∧ EvenAddress ((edge 0 [] []).ea 1 2) :=
  ⟨edge_undisturbed, rfl⟩

theorem witness_Compares : EvenReg 14 ∧ EvenReg 0 ∧ Undisturbed (edge 0 [] []) ∧ EvenAddress ((edge 0 [] []).ea 1 2) :=
  ⟨rfl, rfl, edge_undisturbed, rfl⟩

/-- Where memory ends, whose last halfword is read-only: a byte, a halfword, a fullword and a list header over the
end, the
fixed locations of bank 0, which are not there, and stores to the last halfword. -/
theorem witness_UnfittedMemory :
    let s := sparse 0x0005
    let bare := { s with psw := { s.psw with control := { s.psw.control with PM := true } } }
    (Absent s s.psw.OB (s.ea 0 0x0200) 1 ∧ EvenAddress (s.ea 0 0x00fe) ∧ Absent s s.psw.OB (s.ea 0 0x00fe) 2 ∧
      ¬Absent s s.psw.OB (s.ea 0 0x01fe) 2 ∧ Absent s s.psw.OB (s.ea 0 0x01fe) 3 ∧ EvenReg 14 ∧ QuadReg 12 ∧
      Absent s s.psw.OB (s.ea 0 0x01fc) (2 * (16 - (13 : RegNo).toNat)) ∧ Absent s 1 (s.ea 0 0x0100) 2) ∧
    (Absent s 0 (floatAddress 14) 4 ∧ s.psw.control.PM = false ∧ s.reg 1 = (5 : Byte).setWidth 16 ∧ s.psw.OB = 0 ∧
      0x80 ≤ (s.ea 0 0x0080).toNat ∧ Absent s 0 0x0078 2 ∧ Absent s 0 (0x00d0 + 2 * (s.ea 0 0 &&& 0x00ff)) 2 ∧
      Absent s 0 0x0094 8) ∧
    (bare.psw.control.PM = true ∧ Absent bare 0 0x0030 8) ∧
    s.env.transfers = [] ∧ EvenAddress (s.ea 0 0x01fe) ∧ ReadOnly s s.psw.OB (s.ea 0 0x01fe) 2 ∧
      ReadOnly s s.psw.OB (s.ea 0 0x01fe) (2 * (16 - (15 : RegNo).toNat)) := by
  refine ⟨⟨⟨0, by decide⟩, rfl, ⟨0, by decide⟩, ?_, ⟨2, by decide⟩, rfl, ⟨rfl, by decide⟩, ⟨4, by decide⟩, ⟨0,
    by decide⟩⟩,
    ⟨⟨0, by decide⟩, rfl, rfl, rfl, by decide, ⟨0, by decide⟩, ⟨0, by decide⟩, ⟨0, by decide⟩⟩, ⟨rfl, ⟨0,
      by decide⟩⟩, rfl,
    rfl, ?_, ?_⟩
  · unfold Absent; decide
  · unfold ReadOnly; decide
  · unfold ReadOnly; decide

/-- A fullword that ignores writes, and a floating-point register that is there. -/
theorem witness_UnfittedMemory_full :
    let s := { sparse 0 with install := { Config.Installation.standard with readOnly := [⟨0x01fc, 4⟩] } }
    ReadOnly s s.psw.OB (s.ea 0 0x01fc) 4 ∧ ¬Absent s 0 (floatAddress 14) 4 ∧ EvenReg 14 := by
  refine ⟨?_, ?_, rfl⟩
  · unfold ReadOnly; decide
  · unfold Absent; decide

/-- An unequal and an equal byte. -/
theorem witness_ByteInstructions :
    let s := board 0 0x3000 [(1, 0x0041)] [(0x0050, 0x4241)]
    Undisturbed s ∧ (s.reg 1).setWidth 8 ≠ s.byteAt s.psw.OB (s.ea 0 0x0050) ∧
      (s.reg 1).setWidth 8 = s.byteAt s.psw.OB (s.ea 0 0x0051) := ⟨undisturbed_of rfl rfl, by decide, by decide⟩

theorem witness_WideShifts : EvenReg 14 ∧ QuadReg 12 := ⟨rfl, rfl, by decide⟩

/-- Normalized operands whose product and quotient are numbers, with the reference arithmetic and with another. -/
theorem witness_FloatProductsAreRounded :
    let s := State.reset
    let t := { s with install := { s.install with floatUnit := .installed } }
    isNormalized 0x41300000 = true ∧ isNormalized 0x41200000 = true ∧ s.install.floatUnit = .reference ∧
      s.fpMul 0x41300000 0x41200000 = .num false 1 0x600000 ∧ s.fpDiv 0x41300000 0x41200000 = .num false 1 0x180000 ∧
      t.fpMul 0x41300000 0x41200000 = .num false 1 0x600000 := ⟨by decide, by decide, rfl, by decide, by decide, rfl⟩

theorem witness_PairRotates : EvenReg 14 := rfl

theorem witness_IndexAndLinkBranches : (13 : RegNo).toNat ≤ 13 := by decide

/-- LIS 1,5 at X'0250' with bit 6 reset, and a termination with an entry at the boundary. -/
def unterminated : State :=
  given ((board 0 0x0250 [] []).withFetchWord 16 0x2415) { Boundary.quiet with termination := true, queueEntry := true }

theorem unterminated_bytes : unterminated.fetchBytes = [0x24, 0x15, 0, 0] := by decide

/-- A termination with bit 6 set and an entry; one with bit 6 reset in the wait state and before LIS 1,5; an
overflow. -/
theorem witness_ChannelInterrupts :
    let b := { Boundary.quiet with termination := true, queueEntry := true }
    let full := { Boundary.quiet with overflow := some 0x1234 }
    let enabled := given (board 0x0200 0x0250 [] []) b
    let waiting := given (board 0xc000 0x0250 [] []) b
    let overflowing := given (board 0x0200 0x0250 [] []) full
    (Undisturbed enabled ∧ Arrives enabled b ∧ b.dma = [] ∧ b.attention = false ∧ b.parity = .none ∧ b.power = .none ∧
      enabled.power = .operational ∧ b.overflow = none ∧ b.termination = true ∧ b.queueEntry = true ∧
      enabled.psw.control.CT = true) ∧
    (Undisturbed waiting ∧ Arrives waiting b ∧ waiting.psw.control.CT = false ∧ waiting.psw.control.WT = true) ∧
    (Undisturbed unterminated ∧ Arrives unterminated b ∧ unterminated.psw.control.CT = false ∧
      unterminated.psw.control.WT = false ∧
      EvenAddress unterminated.psw.LOC ∧ decodeWith unterminated.install.codes unterminated.fetchBytes =
        .ok (.lis 1 5, [0, 0])) ∧
    (Undisturbed overflowing ∧ Arrives overflowing full ∧ full.overflow = some 0x1234 ∧
      overflowing.psw.control.CT = true ∧
      ¬(full.termination = true ∧ full.queueEntry = true ∧ overflowing.psw.control.CT = true)) :=
  ⟨⟨undisturbed_of rfl rfl, ⟨[], rfl⟩, rfl, rfl, rfl, rfl, rfl, rfl, rfl, rfl, rfl⟩,
    ⟨undisturbed_of rfl rfl, ⟨[], rfl⟩, rfl, rfl⟩, ⟨undisturbed_of rfl rfl, ⟨[], rfl⟩, rfl, rfl, rfl,
      by rw [unterminated_bytes]; rfl⟩,
    ⟨undisturbed_of rfl rfl, ⟨[], rfl⟩, rfl, rfl, by decide⟩⟩

/-- A board with 1.0 in floating-point register 0 and two words in register 2 and at X'0100'. -/
def floats (status : Half) (second third : Half) : State :=
  board status 0x3000 [] [(0x0000, 0x4110), (0x0004, second), (0x0100, third)]

/-- The shifts of a load: none, one digit at the least exponent that takes it, one digit below; and a zero fraction. -/
theorem witness_FloatLoadResults :
    let digits := fun (w : Full) (k : Nat) =>
      2 ^ 20 ≤ (unpackFloat w).frac * 16 ^ k ∧ (unpackFloat w).frac * 16 ^ k < 2 ^ 24
    Undisturbed (floats 0 0 0) ∧ EvenReg 14 ∧ EvenReg 0 ∧ EvenAddress ((floats 0 0 0).ea 0 0x0100) ∧
    (unpackFloat 0x7f000000).frac = 0 ∧
    (digits 0x00100000 0 ∧ -64 ≤ (unpackFloat 0x00100000).exp) ∧
    (digits 0x01010000 1 ∧ -64 ≤ (unpackFloat 0x01010000).exp - 1) ∧
    (digits 0x00010000 1 ∧ (unpackFloat 0x00010000).exp - 1 < -64) :=
  ⟨undisturbed_of rfl rfl, rfl, rfl, rfl, by decide, by decide, by decide, by decide⟩

theorem witness_FloatArithmeticResults :
    let s := floats 0 0x4110 0x4120
    Undisturbed s ∧ EvenReg 0 ∧ isNormalized (s.floatReg 0) = true ∧ EvenReg 2 ∧ isNormalized (s.floatReg 2) = true ∧
      EvenAddress (s.ea 0 0x0100) ∧ isNormalized (s.fullAt s.psw.OB (s.ea 0 0x0100)) = true ∧
      s.install.floatUnit = .reference :=
  ⟨undisturbed_of rfl rfl, rfl, by decide, rfl, by decide, rfl, by decide, rfl⟩

/-- Each outcome occurs on normalized operands. -/
theorem witness_FloatArithmeticResults_outcomes :
    floatSub 0x41100000 0x41100000 = .zero ∧ floatAdd 0x7ff00000 0x7ff00000 = .overflow false ∧
      floatMul 0x00100000 0x00100000 = .underflow ∧ floatDiv 0x41100000 0 = .divideByZero ∧
      floatAdd 0x41100000 0x41100000 = .num false 1 0x200000 := by decide

theorem witness_FloatCompares :
    let s := floats 0 0xc110 0x0000
    Undisturbed s ∧ EvenReg 0 ∧ isNormalized (s.floatReg 0) = true ∧ EvenReg 2 ∧ isNormalized (s.floatReg 2) = true ∧
      EvenAddress (s.ea 0 0x0100) ∧ isNormalized (s.fullAt s.psw.OB (s.ea 0 0x0100)) = true :=
  ⟨undisturbed_of rfl rfl, rfl, by decide, rfl, by decide, rfl, by decide⟩

theorem witness_FloatUnnormalized :
    let s := floats 0 0x410f 0x4101
    Undisturbed s ∧ EvenReg 0 ∧ EvenReg 2 ∧ ¬(isNormalized (s.floatReg 0) = true ∧ isNormalized (s.floatReg 2) = true) ∧
      EvenAddress (s.ea 0 0x0100) ∧
      ¬(isNormalized (s.floatReg 0) = true ∧ isNormalized (s.fullAt s.psw.OB (s.ea 0 0x0100)) = true) :=
  ⟨undisturbed_of rfl rfl, rfl, rfl, by decide, rfl, by decide⟩

theorem witness_FloatResultsAreNormalized :
    let s := State.reset
    isNormalized 0x41200000 = true ∧ isNormalized 0x41100000 = true ∧
      s.fpAdd 0x41200000 0x41100000 = .num false 1 0x300000 ∧
      s.fpSub 0x41200000 0x41100000 = .num false 1 0x100000 ∧
      s.fpMul 0x41200000 0x41100000 = .num false 1 0x200000 ∧
      s.fpDiv 0x41200000 0x41100000 = .num false 1 0x200000 ∧ floatLoad 0x41020000 = .num false 0 0x200000 := by
  decide

/-- 14.0 and 1.9999990 without a carry, 1.0 and 16.0 with the second exponent the greater: no digit is shifted out. -/
theorem witness_FloatSumsAreExact :
    let p := unpackFloat 0x41e00000
    let q := unpackFloat 0x411fffff
    let u := unpackFloat 0x41100000
    let v := unpackFloat 0x42100000
    (¬p.exp < q.exp ∧ 16 ^ (p.exp - q.exp).toNat ∣ q.frac ∧ p.frac + q.frac / 16 ^ (p.exp - q.exp).toNat < 2 ^ 24 ∧
      State.reset.fpAdd 0x41e00000 0x411fffff = .num false 1 0xffffff) ∧
    u.exp < v.exp ∧ 16 ^ (v.exp - u.exp).toNat ∣ u.frac ∧ v.frac + u.frac / 16 ^ (v.exp - u.exp).toNat < 2 ^ 24 ∧
      State.reset.fpSub 0x41100000 0xc2100000 = .num false 2 0x110000 := by decide

/-- LPSW at an even and an odd address in Supervisor Mode, Protect Mode; and EPSR that loads bit 6 with an entry in the
queue, so that the Channel Termination exchange follows. -/
theorem witness_StatusLoads :
    let queued := { edge 0 [(2, 0x0200)] [] with env := { Env.quiet with queueEntry := true } }
    (Undisturbed (edge 0 [] []) ∧ (edge 0 [] []).psw.control.PM = false ∧ EvenAddress ((edge 0 [] []).ea 1 2) ∧
      ¬EvenAddress ((edge 0 [] []).ea 1 3) ∧ (15 : RegNo) ≠ 0) ∧
    (Undisturbed (edge 0x0100 [] []) ∧ (edge 0x0100 [] []).psw.control.PM = true) ∧
    Undisturbed queued ∧ queued.psw.control.PM = false ∧ queued.env.queueEntry = true ∧
      (queued.psw.withStatus (queued.reg 2)).control.CT = true ∧
      ends (exec (.epsr 3 2) queued) (fun u => u.fullAt 0 0x0082 == 0x02003002) = true :=
  ⟨⟨edge_undisturbed, rfl, rfl, edge_odd, by decide⟩, ⟨undisturbed_of rfl rfl, rfl⟩, undisturbed_of rfl rfl, rfl, rfl,
    by decide, by decide⟩

/-- The Service Pointer of device 255, even and odd. -/
theorem witness_SimulatedInterrupts :
    let s := fun (v : Half) => board 0 0x3000 [] [(0x02ce, v)]
    let sp := fun (v : Half) => (s v).halfAt 0 (0x00d0 + 2 * (0x01ff &&& 0x00ff))
    Undisturbed (s 0xfffe) ∧ Undisturbed (s 0xffff) ∧ (s 0xfffe).psw.control.PM = false ∧ sp 0xfffe = 0xfffe ∧
      EvenAddress (sp 0xfffe) ∧ ¬EvenAddress (sp 0xffff) :=
  ⟨undisturbed_of rfl rfl, undisturbed_of rfl rfl, rfl, rfl, rfl, by unfold EvenAddress; decide⟩

theorem witness_SupervisorCalls : Undisturbed (board 0x0102 0x2000 [] []) := undisturbed_of rfl rfl

theorem witness_BankExchanges : (14 : RegNo).toNat ≤ 14 := by decide

theorem witness_StatusBits : (board 0xfe00 0 [] []).psw.control.PM = false ∧ (15 : RegNo) ≠ 0 ∧
    Undisturbed (board 0x0100 0 [] []) ∧ (board 0x0100 0 [] []).psw.control.PM = true :=
  ⟨rfl, by decide, undisturbed_of rfl rfl, rfl⟩

theorem witness_PrivilegedInstructionsTrap : Undisturbed (board 0x0100 0 [] []) ∧
    (board 0x0100 0 [] []).psw.control.PM = true := ⟨undisturbed_of rfl rfl, rfl⟩

/-- A board in Supervisor Mode, device X'FF' named in register 1 and answering. -/
def device : State := answering (edge 0 [(1, 0x00ff)] []) [0x0f] [0xc1]

/-- The same device with none of its other answers left. -/
def silent : State :=
  { device with env := { device.env with statuses := [], commands := [], reads := [], readHalves := [] } }

/-- A device that answers with a status, one that answers with none left, and no answer. -/
theorem witness_SenseStatus :
    Undisturbed device ∧ device.psw.control.PM = false ∧ device.reg 1 = (0xff : Byte).setWidth 16 ∧
      device.env.selects.headD false = true ∧ device.env.statuses.headD 0x01 = 0x0f ∧
      silent.env.selects.headD false = true ∧ silent.env.statuses.headD 0x01 = 0x01 ∧
      (edge 0 [] []).env.selects.headD false = false :=
  ⟨undisturbed_of rfl rfl, rfl, rfl, rfl, rfl, rfl, rfl, rfl⟩

theorem witness_DeviceOutputs :
    Undisturbed device ∧ device.psw.control.PM = false ∧ device.reg 1 = (0xff : Byte).setWidth 16 ∧
      device.env.selects.headD false = true ∧ device.env.commands.headD true = false ∧
        EvenAddress (device.ea 0 0xfffe) ∧
      silent.env.selects.headD false = true ∧ silent.env.commands.headD true = true ∧
      (edge 0 [] []).env.selects.headD false = false :=
  ⟨undisturbed_of rfl rfl, rfl, rfl, rfl, rfl, rfl, rfl, rfl, rfl⟩

theorem witness_DeviceInputs :
    Undisturbed device ∧ device.psw.control.PM = false ∧ device.reg 1 = (0xff : Byte).setWidth 16 ∧
      device.env.selects.headD false = true ∧ device.env.reads = 0xc1 :: [] ∧ device.env.readHalves = 0xc1c2 :: [] ∧
      EvenAddress (device.ea 0 0xfffe) ∧ Undisturbed silent ∧ silent.env.selects.headD false = true ∧
      silent.env.reads = [] ∧ silent.env.readHalves = [] ∧ (edge 0 [] []).env.selects.headD false = false :=
  ⟨undisturbed_of rfl rfl, rfl, rfl, rfl, rfl, rfl, rfl, undisturbed_of rfl rfl, rfl, rfl, rfl, rfl⟩

/-- A device that answers, and none now while one will later. -/
theorem witness_Acknowledges :
    let s := requesting 0 0 [] 0x10
    let t := { s with env := { s.env with acks := [none, some (0x15, 0x10)] } }
    Undisturbed s ∧ s.psw.control.PM = false ∧ s.env.acks = some (0x15, 0x10) :: [] ∧ t.env.acks.headD none = none ∧
      (2 : RegNo) ≠ 3 := ⟨undisturbed_of rfl rfl, rfl, rfl, rfl, by decide⟩

/-- A block of one byte, one whose limits are in the wrong order, and no answer; limits in registers 14 and 15 and
in the
last two halfwords of the bank. -/
theorem witness_BlockReads :
    let s := fun (start last : Half) =>
      answering (board 0 0x3000 [(1, 5), (14, start), (15, last)] [(0xfffc, start), (0xfffe, last)]) [0] [0x41]
    Undisturbed (s 7 7) ∧ (s 7 7).psw.control.PM = false ∧ (s 7 7).reg 1 = (5 : Byte).setWidth 16 ∧
    (14 : RegNo).toNat ≤ 14 ∧
      EvenAddress ((s 7 7).ea 0 0xfffc) ∧ ((s 8 7).reg 15).toNat < ((s 8 7).reg 14).toNat ∧
      ((s 8 7).halfAt 0 0xfffe).toNat < ((s 8 7).halfAt 0 0xfffc).toNat ∧
      ((s 7 7).reg 14).toNat ≤ ((s 7 7).reg 15).toNat ∧ (s 7 7).env.selects.headD false = true ∧
      (edge 0 [] []).env.selects.headD false = false :=
  ⟨undisturbed_of rfl rfl, rfl, rfl, by decide, rfl, by decide, by decide, by decide, rfl, rfl⟩

/-- The same for the block writes. -/
theorem witness_BlockWrites :
    let s := fun (start last : Half) =>
      answering (board 0 0x3000 [(1, 5), (14, start), (15, last)] [(0xfffc, start), (0xfffe, last)]) [0] []
    Undisturbed (s 7 7) ∧ (s 7 7).psw.control.PM = false ∧ (s 7 7).reg 1 = (5 : Byte).setWidth 16 ∧
    (14 : RegNo).toNat ≤ 14 ∧
      EvenAddress ((s 7 7).ea 0 0xfffc) ∧ ((s 8 7).reg 15).toNat < ((s 8 7).reg 14).toNat ∧
      ((s 7 7).reg 14).toNat ≤ ((s 7 7).reg 15).toNat ∧ (s 7 7).env.selects.headD false = true ∧
      (edge 0 [] []).env.selects.headD false = false :=
  ⟨undisturbed_of rfl rfl, rfl, rfl, by decide, rfl, by decide, by decide, rfl, rfl⟩

/-- An area of one byte after one leading zero, and no answer. -/
theorem witness_Autoload :
    let s := answering (board 0 0x3000 [] [(0x0078, 0x2a99)]) [0, 0x70] [0, 0x41]
    Undisturbed s ∧ s.psw.control.PM = false ∧ s.psw.OB = 0 ∧ 0x80 ≤ (s.ea 0 0x0080).toNat ∧
    s.env.selects.headD false = true ∧
      (0x41 : Byte) ≠ 0 ∧ ([] : List Byte).length + 1 = (s.ea 0 0x0080).toNat + 1 - 0x80 ∧
      s.env.reads = List.replicate 1 0 ++ 0x41 :: ([] : List Byte) ++ [] ∧ 1 + 1 ≤ s.env.statuses.length ∧
      (∀ st ∈ s.env.statuses.take (1 + 1), st.extractLsb' 0 4 = 0) ∧
      (edge 0 [] []).env.selects.headD false = false :=
  ⟨undisturbed_of rfl rfl, rfl, rfl, by decide, rfl, by decide, by decide, rfl, by decide, by decide, rfl⟩

/-- A list at X'1000' with a header. -/
def listed (h : Full) : State := (board 0 0x3000 [(1, 0xaaaa)] []).setFull 0 0x1000 h

theorem listed_full : ListAt (listed 0x02020101) ((listed 0x02020101).ea 0 0x1000) 2 2 1 1 :=
  ⟨rfl, by decide, by decide, by decide, by decide, by decide, by decide⟩

theorem listed_empty : ListAt (listed 0xff00fefe) ((listed 0xff00fefe).ea 0 0x1000) 0xff 0 0xfe 0xfe :=
  ⟨rfl, by decide, by decide, by decide, by decide, by decide, by decide⟩

theorem listed_between : ListAt (listed 0x02010001) ((listed 0x02010001).ea 0 0x1000) 2 1 0 1 :=
  ⟨rfl, by decide, by decide, by decide, by decide, by decide, by decide⟩

/-- A list of no slots is full and empty. -/
theorem listed_none : ListAt (listed 0x00000900) ((listed 0x00000900).ea 0 0x1000) 0 0 9 0 :=
  ⟨rfl, by decide, by decide, by decide, by decide, by decide, by decide⟩

theorem listed_undisturbed (h : Full) : Undisturbed (listed h) := undisturbed_of rfl rfl

/-- A full list, an empty one, one with an element and one of no slots. -/
theorem witness_ListsKeepTheirInvariant :
    ListAgrees 2 2 1 1 ∧ ListAgrees 0xff 0 0xfe 0xfe ∧ ListAgrees 2 1 0 1 ∧ ListAgrees 0 0 0 0 ∧
      ListAt (listed 0x02010001) ((listed 0x02010001).ea 0 0x1000) 2 1 0 1 ∧ Undisturbed (listed 0x02010001) := by
  refine ⟨?_, ?_, ?_, ?_, listed_between, listed_undisturbed _⟩ <;> unfold ListAgrees <;> decide

theorem witness_ListOperations :
    (∀ h, Undisturbed (listed h)) ∧ ListAt (listed 0x02020101) ((listed 0x02020101).ea 0 0x1000) 2 2 1 1 ∧
      ListAt (listed 0xff00fefe) ((listed 0xff00fefe).ea 0 0x1000) 0xff 0 0xfe 0xfe ∧
      ListAt (listed 0x02010001) ((listed 0x02010001).ea 0 0x1000) 2 1 0 1 ∧
      ListAt (listed 0x00000900) ((listed 0x00000900).ea 0 0x1000) 0 0 9 0 ∧ (1 : Byte) ≠ 2 ∧ (1 : Byte) ≠ 0 :=
  ⟨listed_undisturbed, listed_full, listed_empty, listed_between, listed_none, by decide, by decide⟩

theorem witness_ListsReturnTheirElements :
    ListAt (listed 0xff00fefe) ((listed 0xff00fefe).ea 0 0x1000) 0xff 0 0xfe 0xfe ∧ (0 : Byte) ≠ 0xff ∧
      Undisturbed (listed 0xff00fefe) ∧ (∃ t, exec (.atl 1 0 0x1000) (listed 0xff00fefe) = .next t) ∧
      (∃ t, exec (.abl 1 0 0x1000) (listed 0xff00fefe) = .next t) ∧
      ListAt (listed 0x02010001) ((listed 0x02010001).ea 0 0x1000) 2 1 0 1 ∧ (1 : Byte) ≠ 2 ∧ ListAgrees 2 1 0 1 ∧
      ∃ t, exec (.abl 1 0 0x1000) (listed 0x02010001) = .next t :=
  ⟨listed_empty, by decide, listed_undisturbed _, ⟨_, rfl⟩, ⟨_, rfl⟩, listed_between, by decide,
    by unfold ListAgrees; decide, ⟨_, rfl⟩⟩

/-- The clauses of the arc tangent: too far, near, in between; x = 0 with y below zero. -/
theorem witness_TrigonometricResults :
    let limit : Int := 0x7fffffff
    let error : Int := cosineError Cpr.p28
    let far : Full := 0x7fffffff
    let near : Full := 0x00000003
    let down : Full := 0xfffffffb
    Undisturbed (edge 0 [] []) ∧ QuadReg 12 ∧ EvenReg 14 ∧ EvenAddress ((edge 0 [] []).ea 1 2) ∧
      (limit + error) ^ 2 < far.toInt ^ 2 + far.toInt ^ 2 ∧ ¬(near = 0 ∧ far = 0) ∧
      near.toInt ^ 2 + near.toInt ^ 2 < (limit - error) ^ 2 ∧
      ((limit - error) ^ 2 ≤ far.toInt ^ 2 + near.toInt ^ 2 ∧ far.toInt ^ 2 + near.toInt ^ 2 ≤ (limit + error) ^ 2) ∧
      ¬((0 : Full) = 0 ∧ down = 0) ∧ (0 : Full).toInt ^ 2 + down.toInt ^ 2 < (limit - error) ^ 2 ∧ down.toInt < 0 :=
  ⟨edge_undisturbed, ⟨rfl, by decide⟩, rfl, rfl, by decide, by decide, by decide, by decide, by decide, by decide,
    by decide⟩

theorem witness_ArcSinesAndRoots :
    let one : Full := 1
    let minusTwo : Full := 0xfffffffe
    Undisturbed (edge 0 [] []) ∧ EvenReg 14 ∧ QuadReg 12 ∧ EvenAddress ((edge 0 [] []).ea 1 2) ∧
    one.toInt.natAbs < minusTwo.toInt.natAbs ∧
      ¬(minusTwo.toInt.natAbs < one.toInt.natAbs ∨ (minusTwo = 0 ∧ one = 0)) ∧
      one.toInt.natAbs ≤ minusTwo.toInt.natAbs ∧ one = one :=
  ⟨edge_undisturbed, rfl, ⟨rfl, by decide⟩, rfl, by decide, by decide, by decide, rfl⟩

theorem witness_AugmentResults : Undisturbed (edge 0 [] []) ∧ EvenAddress ((edge 0 [] []).ea 1 2) :=
  ⟨edge_undisturbed, rfl⟩

/-- An odd address, device X'0100', an end address of X'7F' and an operand bank of 1, and each inconsistency of a
header. -/
theorem witness_UnspecifiedOperandsStop :
    (QuadReg 12 ∧ EvenReg 14 ∧ ¬EvenAddress ((edge 0 [] []).ea 1 3) ∧ (edge 0 [] []).psw.control.PM = false ∧
      exec (.lh 1 1 3) (edge 0 [] []) = .fault .oddOperandAddress) ∧
    (256 ≤ ((edge 0 [(2, 0x0100)] []).reg 2).toNat ∧ (14 : RegNo).toNat ≤ 14 ∧ EvenAddress ((edge 0 [] []).ea 1 2)) ∧
    ((edge 0x0010 [] []).psw.OB ≠ 0 ∧ ((edge 0 [] []).ea 0 0x007f).toNat < 0x80) ∧
    (Undisturbed (listed 0x02030101) ∧ Header (listed 0x02030101) 0 0x1000 2 3 1 1 ∧
      (2 : Byte).toNat < (3 : Byte).toNat) ∧
    (Header (listed 0x02010200) 0 0x1000 2 1 2 0 ∧ (2 : Byte) ≠ 0 ∧ (2 : Byte).toNat ≤ (2 : Byte).toNat) ∧
    Header (listed 0x02010002) 0 0x1000 2 1 0 2 :=
  ⟨⟨⟨rfl, by decide⟩, rfl, edge_odd, rfl, rfl⟩, ⟨by decide, by decide, rfl⟩, ⟨by decide, by decide⟩,
    ⟨listed_undisturbed _, by unfold Header; decide, by decide⟩, ⟨by unfold Header; decide, by decide, by decide⟩,
      by unfold Header; decide⟩

/-- An ill-formed and a well-formed instruction, and their outcomes. -/
theorem witness_RestrictedFieldsStop :
    State.reset.psw.control.PM = false ∧ ¬WellFormed (.bxh 14 0 0) ∧
      exec (.bxh 14 0 0) State.reset = .refused (.reservedRegister .R1) ∧ WellFormed (.bxh 13 0 0) :=
  ⟨rfl, by decide, rfl, by decide⟩

/-- The default codes fit, and others; with those, SRQA stands at X'E8'. -/
theorem witness_EncodingRoundTrip : CodesFit Config.OperationCodes.standard ∧ CodesFit ⟨0x30, 0xe6, 0xe8⟩ ∧
    encode (.lm 8 3 0x0100) = some [0xd1, 0x83, 0x01, 0x00] ∧
    decode [0xd1, 0x83, 0x01, 0x00, 0x77] = .ok (.lm 8 3 0x0100, [0x77]) ∧
    decodeWith ⟨0x30, 0xe6, 0xe8⟩ [0xe8, 0x40, 0x00, 0x05] = .ok (.srqa 4 0 5, []) :=
  ⟨by unfold CodesFit; decide, by unfold CodesFit; decide, rfl, rfl, by decide⟩

theorem witness_StepKeepsMemoryForm :
    let s := (board 0 0x3000 [(1, 0x5a5a)] []).withFetchWord 32 0x4010fffe
    Memory.wf s.mem = true ∧ ∃ t, step s = .next t := ⟨by decide, ⟨_, rfl⟩⟩

/-- A launch from an image that gives one of its two bytes twice, and from an odd location counter. -/
theorem witness_StartsHaveMemoryForm :
    let psw := fun (a : Half) => { Psw.reset with LOC := a }
    let start := fun (a : Half) =>
      launch Config.Installation.standard [(0x00100, 0x99), (0x00101, 0x15), (0x00100,
        0x24)] (Vector.replicate 16 0) (psw a) .p28 Env.quiet
    EvenAddress (psw 0xfffe).LOC ∧ ¬EvenAddress (psw 0xffff).LOC ∧ (start 0xffff).isNone = true ∧
      ((start 0x0100).map fun s => s.halfAt 0 0x0100) = some 0x2415 :=
  ⟨rfl, by unfold EvenAddress; decide, rfl, by decide⟩

/-- LIS 1,5 in the last halfword of bank 0. -/
def lastHalfword : State := (board 0 0xfffe [] []).withFetchWord 16 0x2415

/-- The same with Attention at the next boundary, which EI does not admit. -/
def lastAttended : State := given lastHalfword { Boundary.quiet with attention := true }

theorem lastHalfword_bytes : lastHalfword.fetchBytes = [0x24, 0x15, 0, 0] := by decide

theorem lastAttended_bytes : lastAttended.arrived.fetchBytes = [0x24, 0x15, 0, 0] := by decide

/-- An input with Attention but EI reset, the quiet environment, and an odd location counter. -/
theorem witness_StepRunsDecodedInstruction :
    (Undisturbed lastAttended ∧ EvenAddress lastAttended.psw.LOC ∧
      lastAttended.arrived.outside lastAttended.boundary = none ∧
      decodeWith lastAttended.install.codes lastAttended.arrived.fetchBytes = .ok (.lis 1 5, [0, 0])) ∧
    (Undisturbed lastHalfword ∧ EvenAddress lastHalfword.psw.LOC ∧ Quiet lastHalfword ∧
      decodeWith lastHalfword.install.codes lastHalfword.fetchBytes = .ok (.lis 1 5, [0, 0])) ∧
    ¬EvenAddress (board 0 0x3001 [] []).psw.LOC ∧ Quiet (board 0 0x3001 [] []) :=
  ⟨⟨undisturbed_of rfl rfl, rfl, rfl, by rw [lastAttended_bytes]; rfl⟩,
    ⟨undisturbed_of rfl rfl, rfl, ⟨rfl, rfl, rfl⟩, by rw [lastHalfword_bytes]; rfl⟩,
    by unfold EvenAddress; decide, ⟨rfl, rfl, rfl⟩⟩

theorem witness_IllegalInstructions :
    let s := (board 0 0xfffe [] []).withFetchWord 16 0xff00
    Undisturbed s ∧ Quiet s ∧ EvenAddress s.psw.LOC ∧
      IsUnassigned s.install.codes (s.byteAt s.psw.IB s.psw.LOC) ∧ IsUnassigned ⟨0x30, 0xe6, 0xe8⟩ 0x2a :=
  ⟨undisturbed_of rfl rfl, ⟨rfl, rfl, rfl⟩, rfl, by unfold IsUnassigned; decide, by unfold IsUnassigned; decide⟩

theorem witness_ProtectModeKeepsControl :
    Undisturbed (board 0x0100 0 [] []) ∧ (board 0x0100 0 [] []).psw.control.PM = true ∧ (∀ r1 x2 i2,
    Instr.lis 1 5 ≠ .svc r1 x2 i2) ∧
      (∃ t, exec (.lis 1 5) (board 0x0100 0 [] []) = .next t) ∧
      ∃ t, exec (.lpsw 0 0 0) (board 0x0100 0 [] []) = .next t :=
  ⟨undisturbed_of rfl rfl, rfl, fun _ _ _ => Instr.noConfusion, ⟨_, rfl⟩, ⟨_, rfl⟩⟩

/-- Attention with EI, with EI and AS and the Service Pointer of device X'15' even, and each malfunction with MM. -/
theorem witness_AsynchronousInterrupts :
    let b := { Boundary.quiet with attention := true }
    let external := given (board 0x4000 0x0250 [] []) b
    let immediate := given (requesting 0x4800 0x0250 [(0x00fa, 0xfffe)] 0x00) b
    let malfunction := fun q => given (board 0x2000 0x0250 [] []) q
    (Undisturbed external ∧ Arrives external b ∧ b.dma = [] ∧ b.termination = false ∧ b.overflow = none ∧
      external.power = .operational ∧
      b.attention = true ∧ b.parity = .none ∧ b.power = .none ∧ external.psw.control.EI = true ∧
      external.psw.control.AS = false) ∧
    (Undisturbed immediate ∧ immediate.psw.control.EI = true ∧ immediate.psw.control.AS = true ∧
      immediate.env.acks = some (0x15, 0x00) :: [] ∧
      EvenAddress (immediate.halfAt 0 (0x00d0 + 2 * (0x15 : Byte).setWidth 16))) ∧
    (∀ q ∈ [{ Boundary.quiet with parity := .instructionRead }, { Boundary.quiet with parity := .operandRead },
        { Boundary.quiet with power := .advanceFailure }],
      Undisturbed (malfunction q) ∧ Arrives (malfunction q) q ∧ (malfunction q).psw.control.MM = true ∧
      q.attention = false) :=
  ⟨⟨undisturbed_of rfl rfl, ⟨[], rfl⟩, rfl, rfl, rfl, rfl, rfl, rfl, rfl, rfl, rfl⟩, ⟨undisturbed_of rfl rfl, rfl,
    rfl, rfl, rfl⟩,
    fun q h => ⟨undisturbed_of rfl rfl, ⟨[], rfl⟩, rfl, by revert q; decide⟩⟩

theorem witness_EndedRunsStay :
    let s := board 0x8000 0x0114 [] []
    let b := { Boundary.quiet with attention := true, parity := .operandRead, power := .advanceFailure }
    Ended s ∧ s.power = .operational ∧ s.env.inputs = [] ∧ Ended (given s b) ∧ Arrives (given s b) b ∧
      b.power = .advanceFailure ∧ b.termination = false ∧ b.overflow = none :=
  ⟨⟨rfl, rfl, rfl⟩, rfl, rfl, ⟨rfl, rfl, rfl⟩, ⟨[], rfl⟩, rfl, rfl, rfl⟩

/-- The save area at X'0028', right after the Register Save Pointer and the saved PSW: in the Run mode with MM reset, an
Attention beside the shutdown; and out of it with MM set, where the area takes in both Machine Malfunction locations and
X'0048' lies outside all that is written. -/
theorem witness_PowerFailureIsSurvived :
    let b := { Boundary.quiet with power := .shutdown, attention := true }
    let b' := { Boundary.quiet with power := .restored true }
    let s : Half → Bool → State := fun status running => { board status 0x0250 [] [(0x0022, 0x0028)] with
      env := { Env.quiet with inputs := [b, b'] }
      runMode := running }
    (s 0x4002 true).psw.control.MM = false ∧ (s 0x2002 false).psw.control.MM = true ∧
    ¬ InSpan 0 0x0028 32 0 0x0048 ∧ ¬ InSpan 0 0x0024 4 0 0x0048 ∧
    ∀ t ∈ [s 0x4002 true, s 0x2002 false], Undisturbed t ∧ t.env.inputs = b :: b' :: [] ∧ b.power = .shutdown ∧
      b'.power = .restored true ∧ b.dma = [] ∧ b'.dma = [] ∧ t.power = .operational ∧
      (t.psw.control.MM = true ∨ t.runMode = true) ∧ t.halfAt 0 0x0022 = 0x0028 ∧ EvenAddress (t.halfAt 0 0x0022) ∧
      ∀ k : Half, k.toNat < 32 → ¬ InSpan 0 0x0022 6 0 (t.halfAt 0 0x0022 + k) := by
  have far : ∀ k : Half, k.toNat < 32 → ¬ InSpan 0 0x0022 6 0 ((0x0028 : Half) + k) := fun k hk h => by
    have h2 : ((0x0028 : Half) + k - 0x0022).toNat < 6 := h.2
    bv_omega
  refine ⟨rfl, rfl, by unfold InSpan; decide, by unfold InSpan; decide, fun t ht => ?_⟩
  simp only [List.mem_cons, List.not_mem_nil, or_false] at ht
  obtain rfl | rfl := ht
  · exact ⟨undisturbed_of rfl rfl, rfl, rfl, rfl, rfl, rfl, rfl, .inr rfl, rfl, rfl, far⟩
  · exact ⟨undisturbed_of rfl rfl, rfl, rfl, rfl, rfl, rfl, rfl, .inl rfl, rfl, rfl, far⟩

end Sys2Proof.Tests
end

