-- ==== Sys2Proof/Proofs/Loads.lean ====
section
/-! SUPPORT. The fixed-point loads (40_load_store.md): each instruction comes to one of the two shared load operations,
`loadHalf` or `loadFull`, whose laws then give the value, the flags and the frame. -/

namespace Sys2Proof.Machine

/-! ## From the shared operation to the statement -/

variable {i : Instr} {s : State} {r1 : RegNo} {len : Half}

/-- An instruction that comes to `loadHalf` is a halfword load (rule R120). -/
theorem loadsHalf_of_exec {v : Half} (h : exec i s = loadHalf r1 v len s) : LoadsHalf i s r1 v len := by
  unfold LoadsHalf Completes
  rw [h]
  exact loadHalf_spec r1 v len s

/-- An instruction that comes to `loadFull` is a fullword load (rule R120). -/
theorem loadsFull_of_exec {v : Full} (h : exec i s = loadFull r1 v len s) : LoadsFull i s r1 v len := by
  unfold LoadsFull Completes
  rw [h]
  exact loadFull_spec r1 v len s

/-! ## Immediate and register operands -/

theorem exec_lis (s : State) (r1 n : RegNo) : exec (.lis r1 n) s = loadHalf r1 (n.setWidth 16) 2 s := rfl

theorem exec_lcs (s : State) (r1 n : RegNo) : exec (.lcs r1 n) s = loadHalf r1 (0 - n.setWidth 16) 2 s := by
  have complement : -shortData n = 0 - n.setWidth 16 := by simp [shortData]
  exact congrArg (loadHalf r1 · 2 s) complement

theorem exec_lhr (s : State) (r1 r2 : RegNo) : exec (.lhr r1 r2) s = loadHalf r1 (s.reg r2) 2 s := rfl

theorem exec_lhi (s : State) (r1 x2 : RegNo) (i2 : Half) :
    exec (.lhi r1 x2 i2) s = loadHalf r1 (i2 + s.index x2) 4 s := rfl

theorem exec_ldpr (s : State) {r1 r2 : RegNo} (h1 : EvenReg r1) (h2 : EvenReg r2) :
    exec (.ldpr r1 r2) s = loadFull r1 (s.pair r2) 2 s := requireEvenPair_even h1 h2 _

/-- Settles O1: each of the five comes to its load operation, LDPR where both register fields are even. -/
theorem immediateAndRegisterLoads : Obligations.ImmediateAndRegisterLoads := fun s r1 r2 n x2 i2 =>
  ⟨loadsHalf_of_exec (exec_lis s r1 n), loadsHalf_of_exec (exec_lcs s r1 n), loadsHalf_of_exec (exec_lhr s r1 r2),
    loadsHalf_of_exec (exec_lhi s r1 x2 i2), fun h1 h2 => loadsFull_of_exec (exec_ldpr s h1 h2)⟩

/-! ## Operands in memory -/

/-- A halfword load through any bank: the address is even, and the read is of memory as it stands (rules R124, R128). -/
theorem Undisturbed.loadFromBank_eq (h : Undisturbed s) (b : BankNo) (r1 : RegNo) {x2 : RegNo} {a2 : Half}
    (he : EvenAddress (s.ea x2 a2)) : loadFromBank b r1 x2 a2 s = loadHalf r1 (s.halfAt b (s.ea x2 a2)) 4 s := by
  rw [loadFromBank, State.withHalf, requireEven_even he, h.readHalf]

/-- LDP reads both halfwords of the fullword from the same memory (rule R127). -/
theorem Undisturbed.exec_ldp (h : Undisturbed s) {r1 x2 : RegNo} {a2 : Half} (he : EvenAddress (s.ea x2 a2))
    (hr : EvenReg r1) : exec (.ldp r1 x2 a2) s = loadFull r1 (s.fullAt s.psw.OB (s.ea x2 a2)) 4 s := by
  change execLdp r1 x2 a2 s = _
  rw [execLdp, requireR1Even_even hr, h.fullOperand, requireEven_even he]

/-- Settles O2: LH and LH0 to LH3 are one load through a bank, and differ in the bank alone. -/
theorem memoryLoads : Obligations.MemoryLoads := by
  intro s r1 x2 a2 h he
  have throughBank (i : Instr) (b : BankNo) (hi : exec i s = loadFromBank b r1 x2 a2 s) :
      LoadsHalf i s r1 (s.halfAt b (s.ea x2 a2)) 4 := loadsHalf_of_exec (hi.trans (h.loadFromBank_eq b r1 he))
  exact ⟨throughBank _ _ rfl, throughBank _ _ rfl, throughBank _ _ rfl, throughBank _ _ rfl, throughBank _ _ rfl,
    fun hr => loadsFull_of_exec (h.exec_ldp he hr)⟩

end Sys2Proof.Machine
end

section
/-! SUPPORT. The byte handling instructions (43_byte_handling.md): the halfwords that LBR, STBR and EXBR assemble, and
the chart of CLB. -/

namespace Sys2Proof.Machine

/-! ## From the update of the state to the statement -/

section
variable {i : Instr} {s : State}

/-- An instruction that writes one register and goes on leaves the condition code and everything else. -/
theorem writesHalf_of_exec {r : RegNo} {v len : Half} (h : exec i s = .next ((s.setReg r v).advance len)) :
    WritesHalf i s r v len :=
  ⟨_, h, by simp, rfl, rfl, (RegisterFrame.setReg r v (by simp) s).afterFlags _ _ rfl rfl rfl⟩

/-- The condition code of a byte compare (rule R225): the order in C alone, and for unequal bytes one of G and L. -/
def ShowsByteOrder (c : CC) (a b : Byte) : Prop :=
  (c.C = true ↔ a.toNat < b.toNat) ∧ (a = b → c.G = false ∧ c.L = false) ∧ (a ≠ b → c.L = !c.G)

/-- Whichever of G and L the free bit of the chart selects, exactly one is set for unequal bytes (log 26). -/
theorem setByteCC_shows (s : State) (a b : Byte) : ShowsByteOrder (s.setByteCC a b).psw.cc a b := by
  have order : (s.setByteCC a b).psw.cc.C = decide (a.toNat < b.toNat) := rfl
  have greater : (s.setByteCC a b).psw.cc.G = (decide (a ≠ b) && s.undef 1) := rfl
  have less : (s.setByteCC a b).psw.cc.L = (decide (a ≠ b) && !s.undef 1) := rfl
  refine ⟨?_, fun equal => ?_, fun unequal => ?_⟩
  · rw [order, decide_eq_true_iff]
  · rw [greater, less]; simp [equal]
  · rw [greater, less]; simp [unequal]

/-- An instruction that comes to the chart of a byte compare writes the condition code alone. -/
theorem setsFlags_of_setByteCC {a b : Byte} {len : Half} (h : exec i s = .next ((s.setByteCC a b).advance len)) :
    SetsFlags i s len fun c => ShowsByteOrder c a b :=
  ⟨_, h, setByteCC_shows s a b, rfl, (RegisterFrame.refl [] s).afterFlags _ _ rfl rfl rfl⟩

end

/-! ## The bytes of a halfword -/

theorem lowByte_eq_setWidth (v : Half) : lowByte v = v.setWidth 8 := by
  simp [lowByte, BitVec.setWidth_eq_extractLsb']

/-- The bits of two bytes put together, at the width of a halfword. -/
theorem getLsbD_bytes (a b : Byte) (k : Nat) :
    (a ++ b : Half).getLsbD k = if k < 8 then b.getLsbD k else a.getLsbD (k - 8) := BitVec.getLsbD_append

theorem getLsbD_lowMask {k : Nat} (hk : k < 16) : (0x00ff : Half).getLsbD k = decide (k < 8) := by decide +revert

theorem getLsbD_highMask {k : Nat} (hk : k < 16) : (0xff00 : Half).getLsbD k = decide (8 ≤ k) := by decide +revert

/-- A byte loaded clears the high byte (rule R220). -/
theorem setWidth_lowByte (v : Half) : (lowByte v).setWidth 16 = v &&& 0x00ff := by
  refine BitVec.eq_of_getLsbD_eq fun k hk => ?_
  rw [BitVec.getLsbD_and, getLsbD_lowMask hk]
  simp [lowByte, hk, Bool.and_comm]

/-- The low byte of `w` under the high byte of `v` (rule R222). -/
theorem highByte_append_lowByte (v w : Half) : highByte v ++ lowByte w = (v &&& 0xff00) ||| (w &&& 0x00ff) := by
  refine BitVec.eq_of_getLsbD_eq fun k hk => ?_
  rw [getLsbD_bytes, BitVec.getLsbD_or, BitVec.getLsbD_and, BitVec.getLsbD_and, getLsbD_highMask hk, getLsbD_lowMask hk]
  by_cases low : k < 8
  · simp [lowByte, low]
  · have high : 8 ≤ k := Nat.le_of_not_lt low
    have inByte : k - 8 < 8 := by omega
    simp [highByte, low, high, inByte]

/-- The two bytes of a halfword exchanged (rule R224). -/
theorem lowByte_append_highByte (v : Half) : lowByte v ++ highByte v = (v <<< 8) ||| (v >>> 8) := by
  refine BitVec.eq_of_getLsbD_eq fun k hk => ?_
  rw [getLsbD_bytes, BitVec.getLsbD_or, BitVec.getLsbD_shiftLeft, BitVec.getLsbD_ushiftRight]
  by_cases low : k < 8
  · simp [highByte, low]
  · have inByte : k - 8 < 8 := by omega
    have above : v.getLsbD (8 + k) = false := BitVec.getLsbD_of_ge v _ (by omega)
    simp [lowByte, low, hk, inByte, above]

/-! ## The instructions -/

theorem exec_lbr (s : State) (r1 r2 : RegNo) :
    exec (.lbr r1 r2) s = .next ((s.setReg r1 (s.reg r2 &&& 0x00ff)).advance 2) := by
  rw [← setWidth_lowByte]; rfl

theorem exec_stbr (s : State) (r1 r2 : RegNo) : exec (.stbr r1 r2) s =
    .next ((s.setReg r2 ((s.reg r2 &&& 0xff00) ||| (s.reg r1 &&& 0x00ff))).advance 2) := by
  rw [← highByte_append_lowByte]; rfl

theorem exec_exbr (s : State) (r1 r2 : RegNo) :
    exec (.exbr r1 r2) s = .next ((s.setReg r1 ((s.reg r2 <<< 8) ||| (s.reg r2 >>> 8))).advance 2) := by
  rw [← lowByte_append_highByte]; rfl

theorem Undisturbed.exec_lb {s : State} (h : Undisturbed s) (r1 x2 : RegNo) (a2 : Half) :
    exec (.lb r1 x2 a2) s = .next ((s.setReg r1 ((s.byteAt s.psw.OB (s.ea x2 a2)).setWidth 16)).advance 4) := by
  change execLb r1 x2 a2 s = _
  rw [execLb, h.byteOperand]

theorem Undisturbed.exec_clb {s : State} (h : Undisturbed s) (r1 x2 : RegNo) (a2 : Half) : exec (.clb r1 x2 a2) s =
    .next ((s.setByteCC ((s.reg r1).setWidth 8) (s.byteAt s.psw.OB (s.ea x2 a2))).advance 4) := by
  change execClb r1 x2 a2 s = _
  rw [execClb, h.byteOperand, lowByte_eq_setWidth]

/-- Settles O14: the three register moves anywhere, LB and CLB where the byte in memory can be read undisturbed. -/
theorem byteInstructions : Obligations.ByteInstructions := fun s r1 r2 x2 a2 =>
  ⟨writesHalf_of_exec (exec_lbr s r1 r2), writesHalf_of_exec (exec_stbr s r1 r2),
    writesHalf_of_exec (exec_exbr s r1 r2), fun h =>
    ⟨writesHalf_of_exec (h.exec_lb r1 x2 a2), setsFlags_of_setByteCC (h.exec_clb r1 x2 a2)⟩⟩

end Sys2Proof.Machine
end

section
/-! SUPPORT. The halfword shifts (44_shift_rotate.md): each instruction comes to the shared operation `shiftHalf`, with
the count N or the low four bits of `I2+(X2)`, and the shift that keeps the sign comes to masks. -/

namespace Sys2Proof.Machine

/-! ## The shift that keeps the sign -/

/-- A left shift that keeps the sign bit: the sign bit of the operand, and the other bits of the logical shift. -/
theorem shiftLeftArithmetic_value {w : Nat} (v : BitVec (w + 1)) (n : Nat) : (shiftLeftArithmetic v n).value =
    (v &&& BitVec.twoPow (w + 1) w) ||| ((v <<< n) &&& (BitVec.allOnes w).setWidth (w + 1)) := by
  refine BitVec.eq_of_getLsbD_eq fun k hk => ?_
  rw [shiftLeftArithmetic, BitVec.getLsbD_cons, BitVec.getLsbD_or, BitVec.getLsbD_and, BitVec.getLsbD_and,
    BitVec.getLsbD_twoPow, BitVec.getLsbD_setWidth, BitVec.getLsbD_allOnes]
  by_cases sign : k = w
  · simp [sign, BitVec.msb_eq_getLsbD_last]
  · have below : k < w := by omega
    have inWord : k - n < w + 1 := by omega
    simp [sign, Ne.symm sign, below, hk, inWord]

/-! ## From the shared operation to the statement -/

/-- An instruction that comes to `shiftHalf` is a halfword shift by its count (rule R231). -/
theorem shiftsHalf_of_exec {i : Instr} {s : State} {f : Half → Nat → ShiftResult 16} {r1 : RegNo} {count : BitVec 4}
    {len : Half} {n : Nat} (h : exec i s = shiftHalf f r1 count len s) (counted : count.toNat = n) :
    ShiftsHalf i s r1 (f (s.reg r1) n).value n (f (s.reg r1) n).last len := by
  unfold ShiftsHalf Completes
  rw [h, ← counted]
  exact shiftHalf_spec f r1 count len s

/-! ## The instructions -/

theorem exec_slls (s : State) (r1 n : RegNo) : exec (.slls r1 n) s = shiftHalf shiftLeftLogical r1 n 2 s := rfl

theorem exec_srls (s : State) (r1 n : RegNo) : exec (.srls r1 n) s = shiftHalf shiftRightLogical r1 n 2 s := rfl

theorem exec_slhl (s : State) (r1 x2 : RegNo) (i2 : Half) : exec (.slhl r1 x2 i2) s =
    shiftHalf shiftLeftLogical r1 ((i2 + s.index x2).extractLsb' 0 4) 4 s := rfl

theorem exec_srhl (s : State) (r1 x2 : RegNo) (i2 : Half) : exec (.srhl r1 x2 i2) s =
    shiftHalf shiftRightLogical r1 ((i2 + s.index x2).extractLsb' 0 4) 4 s := rfl

theorem exec_slha (s : State) (r1 x2 : RegNo) (i2 : Half) : exec (.slha r1 x2 i2) s =
    shiftHalf shiftLeftArithmetic r1 ((i2 + s.index x2).extractLsb' 0 4) 4 s := rfl

theorem exec_srha (s : State) (r1 x2 : RegNo) (i2 : Half) : exec (.srha r1 x2 i2) s =
    shiftHalf shiftRightArithmetic r1 ((i2 + s.index x2).extractLsb' 0 4) 4 s := rfl

/-- Settles O16: each of the six comes to `shiftHalf` with its count; SLHA's result is the masked form of its shift. -/
theorem halfwordShifts : Obligations.HalfwordShifts := by
  intro s r1 n x2 i2 v k m
  have counted : ((i2 + s.index x2).extractLsb' 0 4).toNat = m := BitVec.extractLsb'_toNat ..
  have masked : (shiftLeftArithmetic v m).value = (v &&& 0x8000) ||| ((v <<< m) &&& 0x7fff) :=
    shiftLeftArithmetic_value v m
  exact ⟨shiftsHalf_of_exec (exec_slls s r1 n) rfl, shiftsHalf_of_exec (exec_srls s r1 n) rfl,
    shiftsHalf_of_exec (exec_slhl s r1 x2 i2) counted, shiftsHalf_of_exec (exec_srhl s r1 x2 i2) counted,
    masked ▸ shiftsHalf_of_exec (exec_slha s r1 x2 i2) counted, shiftsHalf_of_exec (exec_srha s r1 x2 i2) counted⟩

end Sys2Proof.Machine
end

section
/-! SUPPORT. The conditional branches (45_branch.md): each instruction comes to the shared operation `branchTo`, on the
condition of rule R260 or on its negation, and a short one counts 2N from its own address. -/

namespace Sys2Proof.Machine

/-! ## From the shared operation to the statement -/

section
variable {i : Instr} {s : State} {m1 : RegNo} {target len : Half}

/-- An instruction that comes to `branchTo` changes the location counter alone (rule R261). -/
theorem goesTo_of_branchTo {taken : Bool} (h : exec i s = branchTo taken target len s) :
    GoesTo i s (if taken then target else s.psw.LOC + len) := by
  unfold GoesTo Completes
  rw [h]
  exact branchTo_spec taken target len s

/-- Branch on True goes to its target where a selected flag is set (rule R260). -/
theorem goesTo_of_branchOnTrue (h : exec i s = branchTo (s.condition m1) target len s) :
    GoesTo i s (if Selected s.psw.cc m1 then target else s.psw.LOC + len) := by
  rw [← condition_selected]
  exact goesTo_of_branchTo h

/-- Branch on False goes past itself where a selected flag is set (rule R260). -/
theorem goesTo_of_branchOnFalse (h : exec i s = branchTo (!s.condition m1) target len s) :
    GoesTo i s (if Selected s.psw.cc m1 then s.psw.LOC + len else target) := by
  have exchanged : (if !s.condition m1 then target else s.psw.LOC + len) =
      if Selected s.psw.cc m1 then s.psw.LOC + len else target := by
    rw [← condition_selected]
    cases s.condition m1 <;> rfl
  exact exchanged ▸ goesTo_of_branchTo h

end

/-! ## The instructions -/

/-- The displacement of a short branch is twice its N field as a number, at the width of an address (rule R266). -/
theorem displacement_eq_ofNat (n : RegNo) : displacement n = BitVec.ofNat 16 (2 * n.toNat) := by
  unfold displacement
  bv_omega

theorem exec_btcr (s : State) (m1 r2 : RegNo) :
    exec (.btcr m1 r2) s = branchTo (s.condition m1) (s.reg r2) 2 s := rfl

theorem exec_btc (s : State) (m1 x2 : RegNo) (a2 : Half) :
    exec (.btc m1 x2 a2) s = branchTo (s.condition m1) (s.ea x2 a2) 4 s := rfl

theorem exec_bfcr (s : State) (m1 r2 : RegNo) :
    exec (.bfcr m1 r2) s = branchTo (!s.condition m1) (s.reg r2) 2 s := rfl

theorem exec_bfc (s : State) (m1 x2 : RegNo) (a2 : Half) :
    exec (.bfc m1 x2 a2) s = branchTo (!s.condition m1) (s.ea x2 a2) 4 s := rfl

theorem exec_btbs (s : State) (m1 n : RegNo) : exec (.btbs m1 n) s =
    branchTo (s.condition m1) (s.psw.LOC - BitVec.ofNat 16 (2 * n.toNat)) 2 s := by
  rw [← displacement_eq_ofNat]; rfl

theorem exec_btfs (s : State) (m1 n : RegNo) : exec (.btfs m1 n) s =
    branchTo (s.condition m1) (s.psw.LOC + BitVec.ofNat 16 (2 * n.toNat)) 2 s := by
  rw [← displacement_eq_ofNat]; rfl

theorem exec_bfbs (s : State) (m1 n : RegNo) : exec (.bfbs m1 n) s =
    branchTo (!s.condition m1) (s.psw.LOC - BitVec.ofNat 16 (2 * n.toNat)) 2 s := by
  rw [← displacement_eq_ofNat]; rfl

theorem exec_bffs (s : State) (m1 n : RegNo) : exec (.bffs m1 n) s =
    branchTo (!s.condition m1) (s.psw.LOC + BitVec.ofNat 16 (2 * n.toNat)) 2 s := by
  rw [← displacement_eq_ofNat]; rfl

/-- Settles O20: each of the eight comes to `branchTo` with its target, four on the condition and four on its
negation. -/
theorem conditionalBranches : Obligations.ConditionalBranches := fun s m1 r2 n x2 a2 =>
  ⟨goesTo_of_branchOnTrue (exec_btcr s m1 r2), goesTo_of_branchOnTrue (exec_btc s m1 x2 a2),
    goesTo_of_branchOnFalse (exec_bfcr s m1 r2), goesTo_of_branchOnFalse (exec_bfc s m1 x2 a2),
    goesTo_of_branchOnTrue (exec_btbs s m1 n), goesTo_of_branchOnTrue (exec_btfs s m1 n),
    goesTo_of_branchOnFalse (exec_bfbs s m1 n), goesTo_of_branchOnFalse (exec_bffs s m1 n)⟩

end Sys2Proof.Machine
end

section
/-! SUPPORT. The floating-point compares (46_floating_point.md rules R294, R295): each comes to the shared operation
`floatCompare`, which on normalized operands shows the order of the exact values and writes the condition code alone. -/

namespace Sys2Proof.Machine

/-! ## From the shared operation to the statement -/

/-- The condition code of a floating-point compare (rule R294): the order of the exact values in C, G and L. -/
def ShowsFloatOrder (c : CC) (a b : Full) : Prop :=
  (c.C = true ↔ floatValue a < floatValue b) ∧ (c.G = true ↔ floatValue b < floatValue a) ∧
    (c.L = true ↔ floatValue a < floatValue b)

/-- An instruction that comes to `floatCompare` on normalized operands writes the condition code alone. -/
theorem setsFlags_of_floatCompare {i : Instr} {s : State} {a b : Full} {len : Half} (ha : isNormalized a = true)
    (hb : isNormalized b = true) (h : exec i s = floatCompare a b len s) :
    SetsFlags i s len fun c => ShowsFloatOrder c a b := by
  have normalized : (isNormalized a && isNormalized b) = true := by rw [ha, hb]; rfl
  rw [floatCompare, if_pos normalized] at h
  exact ⟨_, h, ⟨decide_eq_true_iff, decide_eq_true_iff, decide_eq_true_iff⟩, rfl,
    (RegisterFrame.refl [] s).afterFlags _ _ rfl rfl rfl⟩

/-! ## The instructions -/

/-- CER compares the two floating-point registers, which its even register fields name (rules R281, R294). -/
theorem Undisturbed.exec_cer {s : State} (h : Undisturbed s) {r1 r2 : RegNo} (h1 : EvenReg r1) (h2 : EvenReg r2) :
    exec (.cer r1 r2) s = floatCompare (s.floatReg r1) (s.floatReg r2) 2 s := by
  change execCer r1 r2 s = _
  rw [execCer, h.floatRegisters, requireEvenPair_even h1 h2]

/-- CE compares a floating-point register with the fullword at its even effective address (rules R281, R295). -/
theorem Undisturbed.exec_ce {s : State} (h : Undisturbed s) {r1 x2 : RegNo} {a2 : Half} (h1 : EvenReg r1)
    (he : EvenAddress (s.ea x2 a2)) :
    exec (.ce r1 x2 a2) s = floatCompare (s.floatReg r1) (s.fullAt s.psw.OB (s.ea x2 a2)) 4 s := by
  change execCe r1 x2 a2 s = _
  rw [execCe, h.floatOperands, requireR1Even_even h1, requireEven_even he]

/-- Settles O25: CER and CE come to one compare, and differ in where the second operand stands and in length. -/
theorem floatCompares : Obligations.FloatCompares := fun _ _ _ _ _ h h1 ha =>
  ⟨fun h2 hb => setsFlags_of_floatCompare ha hb (h.exec_cer h1 h2),
    fun he hb => setsFlags_of_floatCompare ha hb (h.exec_ce h1 he)⟩

end Sys2Proof.Machine
end

section
/-! SUPPORT. The loads of the augment set (49_list_trig_augment.md rules R383 to R388): each instruction comes to the
shared operation `augmentResult`, and the chart of each result is a number by cases of the operand. -/

namespace Sys2Proof.Machine

/-! ## From the shared operation to the statement -/

/-- An instruction that comes to `augmentResult` loads its result and sets all four flags by its chart. -/
theorem augments_of_exec {i : Instr} {s : State} {r1 : RegNo} {v len : Half} {c : CC} {bits : BitVec 4}
    (h : exec i s = augmentResult r1 v c len s) (chart : c.bits = bits) : Augments i s r1 v bits len :=
  ⟨_, h, by simp, chart, rfl, (RegisterFrame.setReg r1 v (by simp) s).afterFlags _ _ rfl rfl rfl⟩

/-! ## The charts -/

/-- A subtraction from zero borrows for every operand but zero (rule R383). -/
theorem subN_zero_carry {n : Nat} (v : BitVec n) : (subN 0 v false).carry = decide (v ≠ 0) := by
  simp [subN, Nat.pos_iff_ne_zero, BitVec.toNat_eq]

/-- A subtraction from zero overflows on the least number alone. -/
theorem subN_zero_overflow (v : Half) : (subN 0 v false).overflow = decide (v = 0x8000) := by
  have least : v = 0x8000 ↔ v.toInt = -32768 := BitVec.toInt_inj.symm
  have low := BitVec.le_toInt v
  have high := BitVec.toInt_lt (x := v)
  have zero : (0 : Half).toInt = 0 := rfl
  rw [Bool.eq_iff_iff]
  simp only [subN, outsideSigned, Bool.or_eq_true, decide_eq_true_eq, least, zero, Bool.toNat_false]
  omega

theorem subN_zero_value {n : Nat} (v : BitVec n) : (subN 0 v false).value = -v := by simp [subN_value]

/-- The chart of LCHR is that of the subtraction 0 - v (rule R383). -/
theorem complementCC_bits (v : Half) : (subN 0 v false).cc.bits =
    if v = 0 then 0 else if v = 0x8000 then 13 else if (-v).msb then 9 else 10 := by
  by_cases zero : v = 0
  · rw [zero]; rfl
  by_cases least : v = 0x8000
  · rw [least]; rfl
  have negated : -v ≠ 0 := neg_ne_zero.mpr zero
  have flags : (subN 0 v false).cc = ⟨true, false, !(-v).msb, (-v).msb⟩ := by
    rw [SumResult.cc, subN_zero_carry, subN_zero_overflow, subN_zero_value, isPositive, isNegative,
      decide_eq_true zero, decide_eq_false least, decide_eq_true negated, Bool.true_and]
  rw [flags, if_neg zero, if_neg least]
  cases (-v).msb <;> rfl

theorem changedBaseCC_bits (v : Half) : (changedBaseCC v).bits =
    if v = 0 then 0 else if v = 0x8000 then 8 else if v.msb then 1 else 2 := by
  simp only [changedBaseCC, apply_ite CC.bits, CC.bits_ofBits]

theorem absoluteValueCC_bits (v : Half) : (absoluteValueCC v).bits =
    if v = 0 then 0 else if v = 0x8000 then 13 else if v.msb then 10 else 2 := by
  simp only [absoluteValueCC, apply_ite CC.bits, CC.bits_ofBits]

/-! ## The instructions -/

theorem loadComplement_eq (r1 : RegNo) (v len : Half) (s : State) :
    loadComplement r1 v len s = augmentResult r1 (-v) (subN 0 v false).cc len s := by
  rw [loadComplement, subN_zero_value]

theorem exec_lchr (s : State) (r1 r2 : RegNo) :
    exec (.lchr r1 r2) s = augmentResult r1 (-s.reg r2) (subN 0 (s.reg r2) false).cc 2 s :=
  loadComplement_eq r1 (s.reg r2) 2 s

theorem exec_lcnhr (s : State) (r1 r2 : RegNo) :
    exec (.lcnhr r1 r2) s = augmentResult r1 (changedBase (s.reg r2)) (changedBaseCC (s.reg r2)) 2 s := rfl

theorem exec_lavr (s : State) (r1 r2 : RegNo) :
    exec (.lavr r1 r2) s = augmentResult r1 (absoluteValue (s.reg r2)) (absoluteValueCC (s.reg r2)) 2 s := rfl

section
variable {s : State} {x2 : RegNo} {a2 : Half}

theorem Undisturbed.exec_lch (h : Undisturbed s) (he : EvenAddress (s.ea x2 a2)) (r1 : RegNo) :
    let v := s.halfAt s.psw.OB (s.ea x2 a2)
    exec (.lch r1 x2 a2) s = augmentResult r1 (-v) (subN 0 v false).cc 4 s := by
  change execLch r1 x2 a2 s = _
  rw [execLch, h.halfOperand, requireEven_even he, loadComplement_eq]

theorem Undisturbed.exec_lcnh (h : Undisturbed s) (he : EvenAddress (s.ea x2 a2)) (r1 : RegNo) :
    let v := s.halfAt s.psw.OB (s.ea x2 a2)
    exec (.lcnh r1 x2 a2) s = augmentResult r1 (changedBase v) (changedBaseCC v) 4 s := by
  change execLcnh r1 x2 a2 s = _
  rw [execLcnh, h.halfOperand, requireEven_even he]

theorem Undisturbed.exec_lav (h : Undisturbed s) (he : EvenAddress (s.ea x2 a2)) (r1 : RegNo) :
    let v := s.halfAt s.psw.OB (s.ea x2 a2)
    exec (.lav r1 x2 a2) s = augmentResult r1 (absoluteValue v) (absoluteValueCC v) 4 s := by
  change execLav r1 x2 a2 s = _
  rw [execLav, h.halfOperand, requireEven_even he]

end

/-- Settles O48: each of the six comes to `augmentResult`, with a result and a chart that its register form and its
memory form share. -/
theorem augmentResults : Obligations.AugmentResults := fun s r1 r2 _ _ =>
  ⟨augments_of_exec (exec_lchr s r1 r2) (complementCC_bits _),
    augments_of_exec (exec_lcnhr s r1 r2) (changedBaseCC_bits _),
    augments_of_exec (exec_lavr s r1 r2) (absoluteValueCC_bits _), fun h he =>
    ⟨augments_of_exec (h.exec_lch he r1) (complementCC_bits _),
      augments_of_exec (h.exec_lcnh he r1) (changedBaseCC_bits _),
      augments_of_exec (h.exec_lav he r1) (absoluteValueCC_bits _)⟩⟩

end Sys2Proof.Machine
end

section
/-! SUPPORT. The exchange of the CORDIC precision register (49_list_trig_augment.md rule R372). -/

namespace Sys2Proof.Machine

theorem getLsbD_precisionMask {k : Nat} (hk : k < 16) : (0x000c : Half).getLsbD k = decide (2 ≤ k ∧ k < 4) := by
  decide +revert

/-- Bits 12:13 of a halfword, left where they stand. -/
theorem and_precisionMask (v : Half) : v &&& (0x000c : Half) = (v.extractLsb' 2 2).setWidth 16 <<< 2 := by
  refine BitVec.eq_of_getLsbD_eq fun k hk => ?_
  rw [BitVec.getLsbD_and, getLsbD_precisionMask hk, BitVec.getLsbD_shiftLeft]
  by_cases low : k < 2
  · simp [low]
  · have inHalf : k - 2 < 16 := by omega
    have above : 2 + (k - 2) = k := by omega
    have width : k - 2 < 2 ↔ k < 4 := by omega
    simp [low, hk, inHalf, above, width, Nat.le_of_not_lt low, Bool.and_comm]

/-- The value that two bits give the CPR, as the masked halfword of rule R372. -/
theorem cpr_ofBits_word (b : BitVec 2) :
    BitVec.ofNat 16 (Cpr.ofBits b).toNat = b.setWidth 16 <<< 2 ||| 0x0010 := by decide +revert

theorem cpr_word_toNat (p : Cpr) : (BitVec.ofNat 16 p.toNat).toNat = p.toNat := by cases p <;> rfl

/-- Settles O45: the CPR is set from R2 and R1 from the CPR, both as they stood before. -/
theorem precisionExchange : Obligations.PrecisionExchange := fun s r1 r2 =>
  have newCpr : BitVec.ofNat 16 (Cpr.ofBits ((s.reg r2).extractLsb' 2 2)).toNat = (s.reg r2 &&& 0x000c) ||| 0x0010 := by
    rw [cpr_ofBits_word, and_precisionMask]
  ⟨_, rfl, newCpr, (congrArg BitVec.toNat (State.reg_setReg_same _ r1 _)).trans (cpr_word_toNat s.cpr), rfl, rfl,
    fun _ other => State.reg_setReg_other _ _ (List.ne_of_not_mem_cons other),
    fun _ _ => rfl, ⟨rfl, rfl, rfl⟩, rfl, rfl, rfl, rfl⟩

end Sys2Proof.Machine
end

section
/-! SUPPORT. The list instructions (49_list_trig_augment.md rules R361 to R364): on a consistent header each comes to
one update of the state, which rewrites the tally and one pointer of the header and stores or loads one slot. -/

namespace Sys2Proof.Machine

/-! ## The header rewritten -/

/-- The tally of the list at `a` rewritten, and the pointer at offset `p` of its header. -/
def State.setHeader (s : State) (b : BankNo) (a : Half) (used : Byte) (p : Half) (pointer : Byte) : State :=
  (s.setByte b (a + 1) used).setByte b (a + p) pointer

section
variable {s : State} {b : BankNo} {a : Half} {n used top bot : Byte}

/-- The two transfers by which a list instruction rewrites a header. -/
theorem Undisturbed.writeHeader (h : Undisturbed s) (b : BankNo) (a : Half) (used : Byte) (p : Half) (pointer : Byte)
    (k : State → Outcome) : (s.writeByte b (a + 1) used fun u => u.writeByte b (a + p) pointer k) =
      k (s.setHeader b a used p pointer) := by
  rw [h.writeByte, ((State.setByte_undisturbed s b _ _).2 h).writeByte, State.setHeader]

theorem Undisturbed.setHeader (h : Undisturbed s) (b : BankNo) (a : Half) (used : Byte) (p : Half) (pointer : Byte) :
    Undisturbed (s.setHeader b a used p pointer) :=
  (State.setByte_undisturbed _ b _ _).2 ((State.setByte_undisturbed s b _ _).2 h)

/-- The top pointer stands at offset 2. -/
theorem Header.setTop (h : Header s b a n used top bot) (used' top' : Byte) :
    Header (s.setHeader b a used' 2 top') b a n used' top' bot := by
  obtain ⟨slots, -, -, bottom⟩ := h
  simpa [Header, State.setHeader, State.byteAt_setByte] using ⟨slots, bottom⟩

/-- The bottom pointer stands at offset 3. -/
theorem Header.setBottom (h : Header s b a n used top bot) (used' bot' : Byte) :
    Header (s.setHeader b a used' 3 bot') b a n used' top bot' := by
  obtain ⟨slots, -, topmost, -⟩ := h
  simpa [Header, State.setHeader, State.byteAt_setByte] using ⟨slots, topmost⟩

/-- Rewriting a header changes bytes 1 to 3 of it alone. -/
theorem State.setHeader_outside (s : State) (b : BankNo) (a : Half) (used : Byte) {p : Half} (pointer : Byte)
    (hp : (p - 1).toNat < 3) : SameMemoryOutside b (a + 1) 3 s (s.setHeader b a used p pointer) := by
  intro b' a' outside
  rw [State.setHeader, State.byteAt_setByte_other, State.byteAt_setByte_other]
  · rintro ⟨rfl, rfl⟩
    exact outside ⟨rfl, by simp⟩
  · rintro ⟨rfl, rfl⟩
    have offset : a + p - (a + 1) = p - 1 := by bv_omega
    exact outside ⟨rfl, offset ▸ hp⟩

end

/-! ## The slots -/

section
variable {s : State} {b : BankNo} {a : Half}

/-- No byte of a slot is one of the header bytes that change. -/
theorem slot_outside_header (b : BankNo) (a : Half) (k : Byte) {j : Half} (hj : j.toNat < 2) :
    ¬InSpan b (a + 1) 3 b (slotAddress a k + j) := by
  rintro ⟨-, inside⟩
  have offset := slot_offset a k hj
  rw [slotAddress_eq] at inside
  generalize a + 4 + 2 * k.setWidth 16 + j = byte at inside offset
  bv_omega

/-- What leaves memory outside the header alone leaves every slot alone. -/
theorem halfAt_slot_of_outside {t : State} (h : SameMemoryOutside b (a + 1) 3 s t) (k : Byte) :
    t.halfAt b (slotAddress a k) = s.halfAt b (slotAddress a k) :=
  State.halfAt_congr (h _ _ (by simpa using slot_outside_header b a k (j := 0) (by decide)))
    (h _ _ (slot_outside_header b a k (by decide)))

/-- A store to a slot leaves the header alone. -/
theorem Header.setSlot {n used top bot : Byte} (h : Header s b a n used top bot) (k : Byte) (v : Half) :
    Header (s.setHalf b (slotAddress a k) v) b a n used top bot := by
  have kept (m : Half) (hm : m.toNat < 4) :
      (s.setHalf b (slotAddress a k) v).byteAt b (a + m) = s.byteAt b (a + m) := by
    rw [slotAddress_eq, State.byteAt_setHalf, if_neg fun e => slot_ne_header a k (by decide) hm e.2,
      if_neg fun e => slot_ne_header a k (j := 0) (by decide) hm (by simpa using e.2)]
  obtain ⟨slots, tally, topmost, bottom⟩ := h
  exact ⟨(by simpa using kept 0 (by decide) : _ = s.byteAt b a).trans slots, (kept 1 (by decide)).trans tally,
    (kept 2 (by decide)).trans topmost, (kept 3 (by decide)).trans bottom⟩

end

/-! ## What the instructions come to -/

section
variable {s : State} {x2 : RegNo} {a2 : Half} {n used top bot : Byte}

theorem ListAt.header {a : Half} (h : ListAt s a n used top bot) : Header s s.psw.OB a n used top bot :=
  ⟨h.slots, h.tally, h.topPointer, h.bottomPointer⟩

theorem Undisturbed.exec_atl (hu : Undisturbed s) (h : ListAt s (s.ea x2 a2) n used top bot) (r1 : RegNo) :
    let a := s.ea x2 a2
    exec (.atl r1 x2 a2) s = if used = n then listFlagged s else
      listAdded ((s.setHeader s.psw.OB a (used + 1) 2 (slotBefore n top)).setHalf s.psw.OB
        (slotAddress a (slotBefore n top)) (s.reg r1)) := by
  change execAtl r1 x2 a2 s = _
  rw [execAtl, hu.withListTop h]
  simp only [hu.writeHeader, (hu.setHeader ..).writeHalf, ListHeader.before_eq]

theorem Undisturbed.exec_abl (hu : Undisturbed s) (h : ListAt s (s.ea x2 a2) n used top bot) (r1 : RegNo) :
    let a := s.ea x2 a2
    exec (.abl r1 x2 a2) s = if used = n then listFlagged s else
      listAdded ((s.setHalf s.psw.OB (slotAddress a bot) (s.reg r1)).setHeader s.psw.OB a (used + 1) 3
        ((ListHeader.mk n used top bot).after bot)) := by
  change execAbl r1 x2 a2 s = _
  rw [execAbl, hu.withListBottom h]
  simp only [hu.writeHalf, ((State.setHalf_undisturbed s _ _ _).2 hu).writeHeader]

theorem Undisturbed.exec_rtl (hu : Undisturbed s) (h : ListAt s (s.ea x2 a2) n used top bot) (r1 : RegNo) :
    let a := s.ea x2 a2
    exec (.rtl r1 x2 a2) s = if used = 0 then listFlagged s else
      listRemoved (used - 1) ((s.setReg r1 (s.halfAt s.psw.OB (slotAddress a top))).setHeader s.psw.OB a (used - 1) 2
        ((ListHeader.mk n used top bot).after top)) := by
  change execRtl r1 x2 a2 s = _
  rw [execRtl, hu.withListTop h]
  simp only [hu.readHalf, ((State.setReg_undisturbed s r1 _).2 hu).writeHeader]

theorem Undisturbed.exec_rbl (hu : Undisturbed s) (h : ListAt s (s.ea x2 a2) n used top bot) (r1 : RegNo) :
    let a := s.ea x2 a2
    exec (.rbl r1 x2 a2) s = if used = 0 then listFlagged s else
      listRemoved (used - 1) ((s.setReg r1 (s.halfAt s.psw.OB (slotAddress a (slotBefore n bot)))).setHeader
        s.psw.OB a (used - 1) 3 (slotBefore n bot)) := by
  change execRbl r1 x2 a2 s = _
  rw [execRbl, hu.withListBottom h]
  simp only [hu.readHalf, ((State.setReg_undisturbed s r1 _).2 hu).writeHeader, ListHeader.before_eq]

end

/-! ## From the update of the state to the statement -/

section
variable {i : Instr} {s : State} {r1 : RegNo} {a slot : Half} {n used top bot : Byte}

/-- What adding R1 to a list leaves (rule R361): this header, and R1 in this slot. -/
def ElementAdded (s : State) (r1 : RegNo) (a : Half) (n used top bot : Byte) (slot : Half) (t : State) : Prop :=
  Header t s.psw.OB a n used top bot ∧ t.halfAt s.psw.OB slot = s.reg r1 ∧ t.psw.cc.bits = 0 ∧
    t.psw.LOC = s.psw.LOC + 4 ∧ SameRegsBut [] s t ∧ SameModes s t ∧ SameUnits s t ∧
    SameMemoryButList s.psw.OB a slot s t

/-- What removing an element into R1 leaves (rule R363): this header, the element of this slot in R1, and G set unless
the list held one element. -/
def ElementRemoved (s : State) (r1 : RegNo) (a : Half) (n used top bot : Byte) (slot : Half) (t : State) : Prop :=
  Header t s.psw.OB a n (used - 1) top bot ∧ t.reg r1 = s.halfAt s.psw.OB slot ∧
    t.psw.cc.bits = (if used = 1 then 0 else 2) ∧ t.psw.LOC = s.psw.LOC + 4 ∧ SameRegsBut [r1] s t ∧
    SameModes s t ∧ SameUnits s t ∧ SameMemoryOutside s.psw.OB (a + 1) 3 s t

/-- A list instruction that finds the list full or empty sets V alone. -/
theorem setsFlags_of_listFlagged (h : exec i s = listFlagged s) : SetsFlags i s 4 fun c => c.bits = 4 :=
  ⟨_, h, CC.bits_ofBits 4, rfl, (RegisterFrame.refl [] s).afterFlags _ _ rfl rfl rfl⟩

/-- ATL rewrites the header, then stores the slot. -/
theorem elementAdded_of_headerFirst {p : Half} {pointer k : Byte} (hp : (p - 1).toNat < 3)
    (h : exec i s = listAdded ((s.setHeader s.psw.OB a used p pointer).setHalf s.psw.OB (slotAddress a k) (s.reg r1)))
    (header : Header (s.setHeader s.psw.OB a used p pointer) s.psw.OB a n used top bot) :
    Completes i s (ElementAdded s r1 a n used top bot (slotAddress a k)) :=
  ⟨_, h, header.setSlot k _, State.halfAt_setHalf_same .., CC.bits_ofBits 0, rfl, fun _ _ => rfl, ⟨rfl, rfl, rfl⟩,
    ⟨rfl, rfl, rfl, rfl, rfl⟩, fun b' a' outHeader outSlot =>
      ((StoreFrame.setHalf _ _ _ _).memory b' a' outSlot).trans (s.setHeader_outside _ a _ _ hp b' a' outHeader)⟩

/-- ABL stores the slot, then rewrites the header. -/
theorem elementAdded_of_slotFirst {p : Half} {pointer k : Byte} (hp : (p - 1).toNat < 3)
    (h : exec i s = listAdded ((s.setHalf s.psw.OB (slotAddress a k) (s.reg r1)).setHeader s.psw.OB a used p pointer))
    (header : Header ((s.setHalf s.psw.OB (slotAddress a k) (s.reg r1)).setHeader s.psw.OB a used p pointer) s.psw.OB
      a n used top bot) :
    Completes i s (ElementAdded s r1 a n used top bot (slotAddress a k)) :=
  have outside := (s.setHalf s.psw.OB (slotAddress a k) (s.reg r1)).setHeader_outside s.psw.OB a used pointer hp
  ⟨_, h, header, (halfAt_slot_of_outside outside k).trans (State.halfAt_setHalf_same ..), CC.bits_ofBits 0, rfl,
    fun _ _ => rfl, ⟨rfl, rfl, rfl⟩, ⟨rfl, rfl, rfl, rfl, rfl⟩, fun b' a' outHeader outSlot =>
      (outside b' a' outHeader).trans ((StoreFrame.setHalf s _ _ _).memory b' a' outSlot)⟩

/-- The condition code of a removal, by the tally before it. -/
theorem removedCC_bits (used : Byte) :
    (CC.ofBits (if used - 1 = 0 then 0 else 2)).bits = if used = 1 then 0 else 2 := by
  have last : used - 1 = 0 ↔ used = 1 := by bv_omega
  simp only [CC.bits_ofBits, last]

/-- RTL and RBL load the slot, then rewrite the header. -/
theorem elementRemoved_of_exec {p : Half} {pointer : Byte} (hp : (p - 1).toNat < 3)
    (h : exec i s = listRemoved (used - 1)
      ((s.setReg r1 (s.halfAt s.psw.OB slot)).setHeader s.psw.OB a (used - 1) p pointer))
    (header : Header ((s.setReg r1 (s.halfAt s.psw.OB slot)).setHeader s.psw.OB a (used - 1) p pointer) s.psw.OB
      a n (used - 1) top bot) :
    Completes i s (ElementRemoved s r1 a n used top bot slot) :=
  ⟨_, h, header, State.reg_setReg_same s r1 _, removedCC_bits used, rfl,
    fun _ other => State.reg_setReg_other s _ (List.ne_of_not_mem_cons other), ⟨rfl, rfl, rfl⟩,
    ⟨rfl, rfl, rfl, rfl, rfl⟩, (s.setReg r1 _).setHeader_outside _ a _ _ hp⟩

end

/-! ## The instructions -/

section
variable {s : State} {x2 : RegNo} {a2 : Half} {n used top bot : Byte}

/-- A list with room or with an element has slots, and its pointers name two of them. -/
theorem ListAt.pointers {a : Half} (h : ListAt s a n used top bot) (hn : used ≠ n ∨ used ≠ 0) :
    top.toNat < n.toNat ∧ bot.toNat < n.toNat := by
  refine h.pointersFit fun none => ?_
  have fits := h.tallyFits
  have unused : used = 0 := BitVec.eq_of_toNat_eq (Nat.le_zero.1 (by rwa [none] at fits))
  exact hn.elim (· (unused.trans none.symm)) (· unused)

theorem Undisturbed.atl_adds (hu : Undisturbed s) (h : ListAt s (s.ea x2 a2) n used top bot) (room : used ≠ n)
    (r1 : RegNo) : Completes (.atl r1 x2 a2) s (ElementAdded s r1 (s.ea x2 a2) n (used + 1) (slotBefore n top) bot
      (slotAddress (s.ea x2 a2) (slotBefore n top))) :=
  elementAdded_of_headerFirst (by decide) ((hu.exec_atl h r1).trans (if_neg room)) (h.header.setTop _ _)

theorem Undisturbed.abl_adds (hu : Undisturbed s) (h : ListAt s (s.ea x2 a2) n used top bot) (room : used ≠ n)
    (r1 : RegNo) : Completes (.abl r1 x2 a2) s (ElementAdded s r1 (s.ea x2 a2) n (used + 1) top (slotAfter n bot)
      (slotAddress (s.ea x2 a2) bot)) := by
  have wrap : (ListHeader.mk n used top bot).after bot = slotAfter n bot :=
    ListHeader.after_eq _ (h.pointers (.inl room)).2
  have exec_eq := (hu.exec_abl h r1).trans (if_neg room)
  rw [wrap] at exec_eq
  exact elementAdded_of_slotFirst (by decide) exec_eq ((h.header.setSlot bot _).setBottom _ _)

theorem Undisturbed.rtl_removes (hu : Undisturbed s) (h : ListAt s (s.ea x2 a2) n used top bot) (held : used ≠ 0)
    (r1 : RegNo) : Completes (.rtl r1 x2 a2) s (ElementRemoved s r1 (s.ea x2 a2) n used (slotAfter n top) bot
      (slotAddress (s.ea x2 a2) top)) := by
  have wrap : (ListHeader.mk n used top bot).after top = slotAfter n top :=
    ListHeader.after_eq _ (h.pointers (.inr held)).1
  have exec_eq := (hu.exec_rtl h r1).trans (if_neg held)
  rw [wrap] at exec_eq
  exact elementRemoved_of_exec (by decide) exec_eq (Header.setTop (s := s.setReg r1 _) h.header _ _)

theorem Undisturbed.rbl_removes (hu : Undisturbed s) (h : ListAt s (s.ea x2 a2) n used top bot) (held : used ≠ 0)
    (r1 : RegNo) : Completes (.rbl r1 x2 a2) s (ElementRemoved s r1 (s.ea x2 a2) n used top (slotBefore n bot)
      (slotAddress (s.ea x2 a2) (slotBefore n bot))) :=
  elementRemoved_of_exec (by decide) ((hu.exec_rbl h r1).trans (if_neg held))
    (Header.setBottom (s := s.setReg r1 _) h.header _ _)

end

/-- Settles O43: on a full or an empty list the two instructions concerned come to `listFlagged`; otherwise each comes
to its update of the header and one slot. -/
theorem listOperations : Obligations.ListOperations := by
  intro s r1 x2 a2 n used top bot hu h a ob slot
  have slot_eq (k : Byte) : slotAddress a k = slot k := slotAddress_eq a k
  refine ⟨fun full => ?_, fun empty => ?_, fun room => ⟨?_, ?_⟩, fun held => ⟨?_, ?_⟩⟩
  · exact List.forall_mem_cons.2 ⟨setsFlags_of_listFlagged ((hu.exec_atl h r1).trans (if_pos full)),
      List.forall_mem_singleton.2 (setsFlags_of_listFlagged ((hu.exec_abl h r1).trans (if_pos full)))⟩
  · exact List.forall_mem_cons.2 ⟨setsFlags_of_listFlagged ((hu.exec_rtl h r1).trans (if_pos empty)),
      List.forall_mem_singleton.2 (setsFlags_of_listFlagged ((hu.exec_rbl h r1).trans (if_pos empty)))⟩
  · exact slot_eq _ ▸ hu.atl_adds h room r1
  · exact slot_eq _ ▸ hu.abl_adds h room r1
  · exact slot_eq _ ▸ hu.rtl_removes h held r1
  · exact slot_eq _ ▸ hu.rbl_removes h held r1

end Sys2Proof.Machine
end

section
/-! SUPPORT. The privileged instructions in Protect Mode (60_exceptions.md rules R407, R426): each begins with the
privilege check, so that in Protect Mode nothing of what it would do is reached. -/

namespace Sys2Proof.Machine

variable {s : State} {i : Instr}

/-- The privilege check stands before everything else in each of the 24 instructions. -/
theorem exec_eq_privileged {r1 r2 : RegNo} {w : Half} (member : i ∈ privilegedSet r1 r2 w) (s : State) :
    ∃ k, exec i s = s.privileged k := by
  simp only [privilegedSet, List.mem_cons, List.not_mem_nil, or_false] at member
  rcases member with
    rfl | rfl | rfl | rfl | rfl | rfl |  -- AIR, AI, SSR, SS, OCR, OC
    rfl | rfl | rfl | rfl |              -- RDR, RD, WDR, WD
    rfl | rfl | rfl | rfl | rfl |        -- RHR, RH, WHR, WH, AL
    rfl | rfl | rfl | rfl |              -- RBR, RB, WBR, WB
    rfl | rfl | rfl | rfl | rfl          -- LPSW, EPSR, SINT, SESB, RESB
  all_goals exact ⟨_, rfl⟩

/-- An instruction that begins with the privilege check is, in Protect Mode, the violation with its own address. -/
theorem completes_violation {k : Outcome} (guarded : exec i s = s.privileged k) (undisturbed : Undisturbed s)
    (protect : s.psw.control.PM = true) : Completes i s fun t => Exchanges s t 0x0030 0x0034 s.psw.LOC := by
  have violation : exec i s = s.raise .protectMode s.psw.LOC := guarded.trans (State.privileged_protect protect k)
  unfold Completes
  rw [violation]
  exact s.raise_spec undisturbed .protectMode s.psw.LOC

/-- Settles O35: each of the 24 begins with the privilege check, which in Protect Mode is the exchange. -/
theorem privilegedInstructionsTrap : Obligations.PrivilegedInstructionsTrap := fun s _ _ _ undisturbed protect =>
  ⟨rfl, fun _ member =>
    have ⟨_, guarded⟩ := exec_eq_privileged member s
    completes_violation guarded undisturbed protect⟩

end Sys2Proof.Machine
end

section
/-! SUPPORT. Decoding against encoding (30_encoding.md rules R90, R91, R100 to R102): the parts of an encoding are those
that the opcode map decodes, so that `decode` inverts `encode`, and the codes of an installation are exchanged for those
of the map one for one. -/

namespace Sys2Proof

/-! ## The opcode map -/

/-- The opcode map gives instruction `i` for these parts, in the row of their length (rules R100, R101). -/
def Encoding.DecodesTo (e : Encoding) (i : Instr) : Prop :=
  match e with
  | .short op r1 r2 => opLength op = 2 ∧ decodeOp op r1 r2 0 = some i
  | .long op r1 r2 w => opLength op ≠ 2 ∧ decodeOp op r1 r2 w = some i

/-- The encoder's table, read by the decoder, instruction by instruction. -/
theorem decodesTo_of_encodeParts {i : Instr} {e : Encoding} (h : encodeParts i = some e) : e.DecodesTo i := by
  cases i <;> cases h <;> exact ⟨by decide, rfl⟩

/-- The decoder's table, read by the encoder, operation code by operation code. -/
theorem encodeParts_of_decodeOp {op : Byte} {r1 r2 : RegNo} {w : Half} {i : Instr} (h : decodeOp op r1 r2 w = some i) :
    encodeParts i = some (if opLength op = 2 then .short op r1 r2 else .long op r1 r2 w) := by
  obtain ⟨n, hn⟩ := op
  interval_cases n <;> cases h <;> rfl

theorem encodeParts_eq_some_iff {i : Instr} {e : Encoding} : encodeParts i = some e ↔ e.DecodesTo i := by
  refine ⟨decodesTo_of_encodeParts, fun h => ?_⟩
  cases e with
  | short op r1 r2 =>
    obtain ⟨length, decoded⟩ := h
    rw [encodeParts_of_decodeOp decoded, if_pos length]
  | long op r1 r2 w =>
    obtain ⟨length, decoded⟩ := h
    rw [encodeParts_of_decodeOp decoded, if_neg length]

/-- No unassigned code is in the map (rule R103). -/
theorem decodeOp_unassigned {op : Byte} (h : op ∈ Machine.unassignedCodes) (r1 r2 : RegNo) (w : Half) :
    decodeOp op r1 r2 w = none := by
  revert op
  simp only [Machine.unassignedCodes, List.forall_mem_append, List.forall_mem_cons, List.not_mem_nil, false_imp_iff,
    implies_true, and_true]
  repeat' constructor

/-! ## Bytes -/

/-- The two 4-bit fields of a byte, put together. -/
theorem fields_append (b : Byte) : b.extractLsb' 4 4 ++ b.extractLsb' 0 4 = b := by
  rw [BitVec.extractLsb'_append_extractLsb'_eq_extractLsb' (by omega)]
  simp

theorem append_fields (r1 r2 : RegNo) :
    (r1 ++ r2 : Byte).extractLsb' 4 4 = r1 ∧ (r1 ++ r2 : Byte).extractLsb' 0 4 = r2 :=
  ⟨Machine.append_high r1 r2, Machine.append_low r1 r2⟩

theorem append_bytes (hi lo : Byte) :
    (hi ++ lo : Half).extractLsb' 8 8 = hi ∧ (hi ++ lo : Half).extractLsb' 0 8 = lo :=
  ⟨Machine.append_high hi lo, Machine.append_low hi lo⟩

theorem decodeFields_eq_ok_iff {op : Byte} {r1 r2 : RegNo} {w : Half} {tail rest : List Byte} {i : Instr} :
    decodeFields op r1 r2 w tail = .ok (i, rest) ↔ decodeOp op r1 r2 w = some i ∧ tail = rest := by
  unfold decodeFields
  cases decodeOp op r1 r2 w <;> simp

/-- What decodes is an encoding with the map's instruction, and the bytes after it. -/
theorem decode_eq_ok_iff {bytes rest : List Byte} {i : Instr} :
    decode bytes = .ok (i, rest) ↔ ∃ e : Encoding, e.DecodesTo i ∧ bytes = encodingBytes e ++ rest := by
  constructor
  · intro h
    match bytes, h with
    | op :: b :: tail, h =>
      by_cases length : opLength op = 2
      · simp only [decode, length, if_true, decodeFields_eq_ok_iff] at h
        obtain ⟨decoded, rfl⟩ := h
        exact ⟨.short op _ _, ⟨length, decoded⟩, by simp [encodingBytes, fields_append]⟩
      · match tail, h with
        | hi :: lo :: tail, h =>
          simp only [decode, length, if_false, decodeFields_eq_ok_iff] at h
          obtain ⟨decoded, rfl⟩ := h
          exact ⟨.long op _ _ _, ⟨length, decoded⟩,
            by simp [encodingBytes, fields_append, append_bytes]⟩
        | [_], h => simp [decode, length] at h
        | [], h => simp [decode, length] at h
    | [_], h => simp [decode] at h
    | [], h => simp [decode] at h
  · rintro ⟨e, decodes, rfl⟩
    cases e with
    | short op r1 r2 =>
      obtain ⟨length, decoded⟩ := decodes
      simpa [encodingBytes, decode, length, decodeFields_eq_ok_iff, append_fields] using decoded
    | long op r1 r2 w =>
      obtain ⟨length, decoded⟩ := decodes
      simpa [encodingBytes, decode, length, decodeFields_eq_ok_iff, append_fields, Machine.half_bytes] using decoded

theorem decode_eq_ok_iff_encode {bytes rest : List Byte} {i : Instr} :
    decode bytes = .ok (i, rest) ↔ ∃ e, encode i = some e ∧ bytes = e ++ rest := by
  simp only [decode_eq_ok_iff, ← encodeParts_eq_some_iff, encode, Option.map_eq_some_iff]
  constructor
  · rintro ⟨e, parts, h⟩
    exact ⟨_, ⟨e, parts, rfl⟩, h⟩
  · rintro ⟨_, ⟨e, parts, rfl⟩, h⟩
    exact ⟨e, parts, h⟩

/-- An encoding begins with an operation code of the map. -/
theorem encode_eq_cons {i : Instr} {e : List Byte} (h : encode i = some e) :
    ∃ op tail, e = op :: tail ∧ op ∉ Machine.unassignedCodes := by
  obtain ⟨parts, decodes, rfl⟩ := Option.map_eq_some_iff.1 h
  have decodes := encodeParts_eq_some_iff.1 decodes
  cases parts with
  | short op r1 r2 =>
    exact ⟨op, _, rfl, fun free => by simpa [decodeOp_unassigned free] using decodes.2⟩
  | long op r1 r2 w =>
    exact ⟨op, _, rfl, fun free => by simpa [decodeOp_unassigned free] using decodes.2⟩

/-! ## The codes of an installation -/

/-- What the installation's codes name in the map: a code that the map holds stands for itself unless it is disputed. -/
theorem mapCode_eq_some_iff {c : Config.OperationCodes} (fit : Machine.CodesFit c) {op op' : Byte}
    (assigned : op ∉ Machine.unassignedCodes) : mapCode c op' = some op ↔ op' = installationCode c op := by
  obtain ⟨h1, h2, h3, codes⟩ := fit
  have other (x : Byte) (hx : x ∈ [c.aer, c.srql, c.srqa]) (h : x = op) : op = 0x2a ∨ op = 0xe6 ∨ op = 0xe8 := by
    have := codes x hx
    rw [h, List.mem_append] at this
    simpa using this.resolve_left assigned
  have aer := other c.aer (by simp)
  have srql := other c.srql (by simp)
  have srqa := other c.srqa (by simp)
  constructor
  · unfold mapCode
    split_ifs with isAer isSrql isSrqa disputed
    · rintro ⟨⟩; exact isAer
    · rintro ⟨⟩; exact isSrql
    · rintro ⟨⟩; exact isSrqa
    · rintro ⟨⟩
    · rintro ⟨⟩
      simp only [not_or] at disputed
      simp only [installationCode, disputed, if_false]
  · rintro rfl
    unfold installationCode
    split_ifs with isAer isSrql isSrqa
    · simp [mapCode, isAer]
    · simp [mapCode, isSrql, h1.symm]
    · simp [mapCode, isSrqa, h2.symm, h3.symm]
    · have kept (h : op = c.aer ∨ op = c.srql ∨ op = c.srqa) : op = 0x2a ∨ op = 0xe6 ∨ op = 0xe8 :=
        h.elim (fun e => aer e.symm) (fun h => h.elim (fun e => srql e.symm) fun e => srqa e.symm)
      simp only [isAer, isSrql, isSrqa, or_self, imp_false, not_or] at kept
      simpa [mapCode, kept] using ⟨isAer, isSrql, isSrqa⟩

theorem decodeWith_eq_ok_iff {c : Config.OperationCodes} (fit : Machine.CodesFit c) {bytes rest : List Byte} {i : Instr} :
    decodeWith c bytes = .ok (i, rest) ↔ ∃ e, encodeWith c i = some e ∧ bytes = e ++ rest := by
  have mapped : decodeWith c bytes = .ok (i, rest) ↔
      ∃ op' tail op, bytes = op' :: tail ∧ mapCode c op' = some op ∧ decode (op :: tail) = .ok (i, rest) := by
    cases bytes with
    | nil => simp [decodeWith]
    | cons op' tail => cases h : mapCode c op' <;> simp [decodeWith, h]
  rw [mapped]
  simp only [decode_eq_ok_iff_encode, encodeWith]
  constructor
  · rintro ⟨op', tail, op, rfl, code, e, encoded, h⟩
    obtain ⟨op, tail', rfl, assigned⟩ := encode_eq_cons encoded
    obtain ⟨rfl, rfl⟩ := List.cons.inj h
    refine ⟨_, by rw [encoded], ?_⟩
    rw [(mapCode_eq_some_iff fit assigned).1 code]
    rfl
  · rintro ⟨e', encoded', rfl⟩
    cases encoded : encode i with
    | none => simp [encoded] at encoded'
    | some e =>
      rw [encoded] at encoded'
      obtain ⟨op, tail, rfl, assigned⟩ := encode_eq_cons encoded
      obtain rfl := Option.some.inj encoded'
      exact ⟨_, tail ++ rest, op, rfl, (mapCode_eq_some_iff fit assigned).2 rfl, _, rfl, rfl⟩

theorem mapCode_standard (op : Byte) : mapCode Config.OperationCodes.standard op = some op := by
  simp only [mapCode, Config.OperationCodes.standard]
  grind

theorem installationCode_standard (op : Byte) : installationCode Config.OperationCodes.standard op = op := by
  simp only [installationCode, Config.OperationCodes.standard]
  grind

/-- Settles O51: with fitting codes, to decode is to find an encoding at the front; the standard codes are the map's. -/
theorem encodingRoundTrip : Obligations.EncodingRoundTrip := by
  intro c fit i bytes rest
  refine ⟨fun encoded => (decodeWith_eq_ok_iff fit).2 ⟨bytes, encoded, rfl⟩, (decodeWith_eq_ok_iff fit).1, ?_, ?_⟩
  · cases bytes with
    | nil => rfl
    | cons op tail => rw [decodeWith, mapCode_standard]
  · rw [encodeWith]
    cases encode i with
    | none => rfl
    | some e => cases e <;> simp [installationCode_standard]

end Sys2Proof
end

section
/-! SUPPORT. What every instruction keeps, shown once for all of them: a property of states that flags, registers, draws
and answers of devices do not touch, and a property of the outcomes of the meanings that start in such states. The field
restrictions of 30_encoding.md rules R98 and R99 are settled first, so that the meanings are entered with fields that the
manual gives a meaning to. -/

namespace Sys2Proof.Machine

/-! ## Field restrictions -/

/-- The refusals for a register field or a must-be-zero field (logs 10 and 11). -/
def Refusal.isRestriction : Refusal → Bool
  | .reservedRegister _ => true
  | .mustBeZero _ => true
  | _ => false

/-- The instruction stops for one of its fields. -/
def Restricted (o : Outcome) : Prop := ∃ r : Refusal, r.isRestriction = true ∧ o = .refused r

theorem restricted_iff {o : Outcome} :
    Restricted o ↔ ∃ field, o = .refused (.reservedRegister field) ∨ o = .refused (.mustBeZero field) := by
  constructor
  · rintro ⟨r, restriction, rfl⟩
    cases r with
    | reservedRegister field => exact ⟨field, .inl rfl⟩
    | mustBeZero field => exact ⟨field, .inr rfl⟩
    | _ => cases restriction
  · rintro ⟨field, rfl | rfl⟩ <;> exact ⟨_, rfl, rfl⟩

theorem ofOddR1_eq_nil {r : RegNo} : Violation.ofOddR1 r = [] ↔ EvenReg r := by simp [Violation.ofOddR1, EvenReg]

theorem ofOddR2_eq_nil {r : RegNo} : Violation.ofOddR2 r = [] ↔ EvenReg r := by simp [Violation.ofOddR2, EvenReg]

theorem ofR1Above_eq_nil {n : Nat} {r : RegNo} : Violation.ofR1Above n r = [] ↔ r.toNat ≤ n := by
  simp [Violation.ofR1Above]

theorem ofR2Above_eq_nil {n : Nat} {r : RegNo} : Violation.ofR2Above n r = [] ↔ r.toNat ≤ n := by
  simp [Violation.ofR2Above]

theorem ofR1NotZero_eq_nil {r : RegNo} : Violation.ofR1NotZero r = [] ↔ r = 0 := by simp [Violation.ofR1NotZero]

theorem ofX2NotZero_eq_nil {r : RegNo} : Violation.ofX2NotZero r = [] ↔ r = 0 := by simp [Violation.ofX2NotZero]

theorem oddPair_eq_nil {r1 r2 : RegNo} :
    Violation.ofOddR1 r1 ++ Violation.ofOddR2 r2 = [] ↔ EvenReg r1 ∧ EvenReg r2 := by
  rw [List.append_eq_nil_iff, ofOddR1_eq_nil, ofOddR2_eq_nil]

theorem oddQuad_eq_nil {r : RegNo} : Violation.ofOddR1 r ++ Violation.ofR1Above 12 r = [] ↔ QuadReg r := by
  rw [List.append_eq_nil_iff, ofOddR1_eq_nil, ofR1Above_eq_nil, QuadReg]

theorem oddQuadR2_eq_nil {vs : List Violation} {r : RegNo} :
    vs ++ Violation.ofOddR2 r ++ Violation.ofR2Above 12 r = [] ↔ vs = [] ∧ QuadReg r := by
  rw [List.append_eq_nil_iff, List.append_eq_nil_iff, ofOddR2_eq_nil, ofR2Above_eq_nil, and_assoc, QuadReg]

theorem oddQuadPair_eq_nil {r1 r2 : RegNo} : Violation.ofOddR1 r1 ++ Violation.ofR1Above 12 r1 ++ Violation.ofOddR2 r2 = [] ↔
    QuadReg r1 ∧ EvenReg r2 := by
  rw [List.append_eq_nil_iff, oddQuad_eq_nil, ofOddR2_eq_nil]

theorem notZeroPair_eq_nil {r1 x2 : RegNo} :
    Violation.ofR1NotZero r1 ++ Violation.ofX2NotZero x2 = [] ↔ r1 = 0 ∧ x2 = 0 := by
  rw [List.append_eq_nil_iff, ofR1NotZero_eq_nil, ofX2NotZero_eq_nil]

section
variable {r1 r2 x2 : RegNo} {k : Outcome}

theorem isEven_iff {r : RegNo} : isEven r = true ↔ EvenReg r := by simp [isEven, EvenReg]

theorem isQuad_iff {r : RegNo} : (isEven r && r.ule 12) = true ↔ QuadReg r := by
  simp [isEven_iff, QuadReg, BitVec.ule]

/-- A check that fails for a field stops, and one that holds goes on to what may stop for another field. -/
theorem restricted_require {ok : Bool} {why : Refusal} (restriction : why.isRestriction = true)
    (h : ok = true → Restricted k) : Restricted (require ok why k) := by
  cases ok with
  | false => exact ⟨why, restriction, rfl⟩
  | true => exact h rfl

theorem restricted_oddR1 (h : ¬EvenReg r1) : Restricted (requireR1Even r1 k) :=
  restricted_require rfl fun even => absurd (isEven_iff.1 even) h

theorem restricted_oddPair (h : ¬(EvenReg r1 ∧ EvenReg r2)) : Restricted (requireEvenPair r1 r2 k) :=
  restricted_require rfl fun even1 => restricted_require rfl fun even2 =>
    absurd ⟨isEven_iff.1 even1, isEven_iff.1 even2⟩ h

theorem restricted_quad (h : QuadReg r1 → Restricted k) : Restricted (requireQuad r1 k) :=
  restricted_require rfl fun quad => h (isQuad_iff.1 quad)

theorem restricted_zero {why : Refusal} (restriction : why.isRestriction = true) (h : r1 = 0 → Restricted k) :
    Restricted (require (decide (r1 = 0)) why k) :=
  restricted_require restriction fun zero => h (of_decide_eq_true zero)

end


/-- One of the 24 instructions of rule R426, with whatever operands. -/
def Privileged (i : Instr) : Prop := ∃ r1 r2 w, i ∈ privilegedSet r1 r2 w

/-- An instruction that breaks a restriction stops for it, a privileged one in Supervisor Mode (rules R98, R99, R407). -/
theorem restricted_of_not_wellFormed {i : Instr} {s : State} (h : ¬WellFormed i)
    (supervisor : Privileged i → s.psw.control.PM = false) : Restricted (exec i s) := by
  have enter (k : Outcome) (p : Privileged i) (hk : Restricted k) : Restricted (s.privileged k) := by
    rwa [State.privileged_supervisor (supervisor p)]
  cases i
  case ldp | stdp | adp | sdp | cdp | cldp | mhr | mh | mhur | mhu | dhr | dh | sll | srl | rll | rrl | sla | sra | le | ste
    | ae | se | ce | me | de | asn | sqd =>
    exact restricted_oddR1 fun even => h (ofOddR1_eq_nil.2 even)
  case ldpr | adpr | sdpr | cdpr | cldpr | ler | aer | ser | cer | mer | der =>
    exact restricted_oddPair fun even => h (oddPair_eq_nil.2 even)
  case mdp | ddp | slql | srql | slqa | srqa | cos | atn =>
    exact restricted_quad fun quad => absurd (oddQuad_eq_nil.2 quad) h
  case mdpr | ddpr | cosr =>
    exact restricted_quad fun quad => restricted_require rfl fun even =>
      absurd (oddQuadPair_eq_nil.2 ⟨quad, isEven_iff.1 even⟩) h
  case asnr | sqdr =>
    exact restricted_require rfl fun even => restricted_require rfl fun quad =>
      absurd (oddQuadR2_eq_nil.2 ⟨ofOddR1_eq_nil.2 (isEven_iff.1 even), isQuad_iff.1 quad⟩) h
  case atnr =>
    exact restricted_quad fun quad1 => restricted_require rfl fun quad2 =>
      absurd (oddQuadR2_eq_nil.2 ⟨oddQuad_eq_nil.2 quad1, isQuad_iff.1 quad2⟩) h
  case bxh | bxle =>
    exact restricted_require rfl fun three => absurd (ofR1Above_eq_nil.2 (BitVec.ule_iff_toNat_le.1 three)) h
  case eppr =>
    exact restricted_require rfl fun two => absurd (ofR1Above_eq_nil.2 (BitVec.ule_iff_toNat_le.1 two)) h
  case rbr r1 r2 | wbr r1 r2 =>
    exact enter _ ⟨r1, r2, 0, by simp [privilegedSet]⟩ (restricted_require rfl fun two =>
      absurd (ofR2Above_eq_nil.2 (BitVec.ule_iff_toNat_le.1 two)) h)
  case lpsw r1 x2 w | sint r1 x2 w | al r1 x2 w =>
    exact enter _ ⟨r1, x2, w, by simp [privilegedSet]⟩ (restricted_zero rfl fun zero =>
      absurd (ofR1NotZero_eq_nil.2 zero) h)
  case sesb r1 x2 w | resb r1 x2 w =>
    exact enter _ ⟨r1, x2, w, by simp [privilegedSet]⟩ (restricted_zero rfl fun zero1 => restricted_zero rfl fun zero2 =>
      absurd (notZeroPair_eq_nil.2 ⟨zero1, zero2⟩) h)
  all_goals exact absurd rfl h

/-! ## What a meaning can do -/

/-- `I` is kept by everything that a meaning does to a state but a change of PSW bits 0:7, and `P` holds of every way
in which it can end but a stop for a field. -/
structure Kept (I : State → Prop) (P : Outcome → Prop) : Prop where
  /-- Registers, flags, bank fields, location counter, draws, CPR and answers of devices are outside `I`. -/
  congr : ∀ {s t : State}, I s → t.mem = s.mem → t.psw.control = s.psw.control → t.env.transfers = s.env.transfers →
    t.install = s.install → I t
  /-- Other agents may have written. -/
  transfer : ∀ {s : State}, I s → I s.transfer
  /-- A byte may have been stored. -/
  storeByte : ∀ {s : State} (b : BankNo) (a : Half) (v : Byte), I s → I (s.storeByte b a v)
  /-- The meaning completes. -/
  next : ∀ {s : State}, I s → P (.next s)
  /-- It stops at an operand. -/
  fault : ∀ f, P (.fault f)
  /-- It stops for what the spec leaves unspecified elsewhere than in a field. -/
  refused : ∀ {r : Refusal}, r.isRestriction = false → P (.refused r)
  /-- It takes an interrupt of the arithmetic that is enabled. -/
  trap : ∀ {s : State} {k : Interrupt} (a : Half), I s →
    (k = .divideFault ∧ s.psw.control.DF = true) ∨ (k = .floatFault ∧ s.psw.control.FP = true) → P (s.raise k a)

namespace Kept

variable {I : State → Prop} {P : Outcome → Prop} {s : State}

/-- A meaning that completes in a state that `I` does not tell from one with `I`. -/
theorem done (K : Kept I P) (hs : I s) {t : State} (hm : t.mem = s.mem := by rfl)
    (hc : t.psw.control = s.psw.control := by rfl) (ht : t.env.transfers = s.env.transfers := by rfl)
    (hi : t.install = s.install := by rfl) : P (.next t) := K.next (K.congr hs hm hc ht hi)

/-! ### Checks -/

theorem require (K : Kept I P) {ok : Bool} {why : Refusal} {k : Outcome} (other : why.isRestriction = false)
    (hk : ok = true → P k) : P (require ok why k) := by
  cases ok with
  | false => exact K.refused other
  | true => exact hk rfl

theorem requireEven (K : Kept I P) {a : Half} {k : Outcome} (hk : P k) : P (requireEven a k) := by
  unfold Machine.requireEven
  split
  · exact K.fault _
  · exact hk

/-! ### Transfers -/

section
variable {b : BankNo} {a : Half}

theorem readByte (K : Kept I P) (hs : I s) {k : Byte → State → Outcome} (hk : ∀ v t, I t → P (k v t)) :
    P (s.readByte b a k) := K.require rfl fun _ => hk _ _ (K.transfer hs)

theorem readHalf (K : Kept I P) (hs : I s) {k : Half → State → Outcome} (hk : ∀ v t, I t → P (k v t)) :
    P (s.readHalf b a k) := K.require rfl fun _ => hk _ _ (K.transfer hs)

theorem readFull (K : Kept I P) (hs : I s) {k : Full → State → Outcome} (hk : ∀ v t, I t → P (k v t)) :
    P (s.readFull b a k) := K.readHalf hs fun _ _ ht => K.readHalf ht fun _ _ hu => hk _ _ hu

theorem writeByte (K : Kept I P) (hs : I s) {v : Byte} {k : State → Outcome} (hk : ∀ t, I t → P (k t)) :
    P (s.writeByte b a v k) := K.require rfl fun _ => hk _ (K.storeByte b a v (K.transfer hs))

theorem writeHalf (K : Kept I P) (hs : I s) {v : Half} {k : State → Outcome} (hk : ∀ t, I t → P (k t)) :
    P (s.writeHalf b a v k) :=
  K.require rfl fun _ => hk _ (K.storeByte _ _ _ (K.storeByte _ _ _ (K.transfer hs)))

theorem writeFull (K : Kept I P) (hs : I s) {v : Full} {k : State → Outcome} (hk : ∀ t, I t → P (k t)) :
    P (s.writeFull b a v k) := K.writeHalf hs fun _ ht => K.writeHalf ht hk

theorem loadMultiple (K : Kept I P) (hs : I s) {n : Nat} {r : RegNo} {k : State → Outcome} (hk : ∀ t, I t → P (k t)) :
    P (State.loadMultiple b n r a k s) := by
  induction n generalizing s r a with
  | zero => exact hk s hs
  | succ n ih => exact K.readHalf hs fun v t ht => ih (s := t.setReg r v) (K.congr ht rfl rfl rfl rfl)

theorem storeMultiple (K : Kept I P) (hs : I s) {n : Nat} {r : RegNo} {k : State → Outcome} (hk : ∀ t, I t → P (k t)) :
    P (State.storeMultiple b n r a k s) := by
  induction n generalizing s r a with
  | zero => exact hk s hs
  | succ n ih => exact K.writeHalf hs fun t ht => ih ht

end

/-! ### Operands -/

section
variable {r1 r2 x2 : RegNo} {a2 : Half}

theorem byteOperand (K : Kept I P) (hs : I s) {k : Byte → State → Outcome} (hk : ∀ v t, I t → P (k v t)) :
    P (s.byteOperand x2 a2 k) := K.readByte hs hk

theorem halfOperand (K : Kept I P) (hs : I s) {k : Half → State → Outcome} (hk : ∀ v t, I t → P (k v t)) :
    P (s.halfOperand x2 a2 k) := K.requireEven (K.readHalf hs hk)

theorem fullOperand (K : Kept I P) (hs : I s) {k : Full → State → Outcome} (hk : ∀ v t, I t → P (k v t)) :
    P (s.fullOperand x2 a2 k) := K.requireEven (K.readFull hs hk)

theorem withScalars (K : Kept I P) (hs : I s) {k : Full → Full → State → Outcome} (hk : ∀ v w t, I t → P (k v w t)) :
    P (s.withScalars x2 a2 k) := K.requireEven (K.readFull hs fun v _ ht => K.readFull ht fun w u hu => hk v w u hu)

theorem floatRegisters (K : Kept I P) (hs : I s) (h : EvenReg r1 ∧ EvenReg r2) {k : Full → Full → State → Outcome}
    (hk : ∀ v w t, I t → P (k v w t)) : P (s.floatRegisters r1 r2 k) := by
  rw [State.floatRegisters, requireEvenPair_even h.1 h.2]
  exact K.readFull hs fun v _ ht => K.readFull ht fun w u hu => hk v w u hu

theorem floatOperands (K : Kept I P) (hs : I s) (h : EvenReg r1) {k : Full → Full → State → Outcome}
    (hk : ∀ v w t, I t → P (k v w t)) : P (s.floatOperands r1 x2 a2 k) := by
  rw [State.floatOperands, requireR1Even_even h]
  exact K.requireEven (K.readFull hs fun v _ ht => K.readFull ht fun w u hu => hk v w u hu)

theorem withListTop (K : Kept I P) (hs : I s) {k : Half → ListHeader → State → Outcome}
    (hk : ∀ a h t, I t → P (k a h t)) : P (s.withListTop x2 a2 k) :=
  K.requireEven (K.readByte hs fun _ _ ht => K.readByte ht fun _ _ hu => K.readByte hu fun _ v hv =>
    K.require rfl fun _ => hk _ _ v hv)

theorem withListBottom (K : Kept I P) (hs : I s) {k : Half → ListHeader → State → Outcome}
    (hk : ∀ a h t, I t → P (k a h t)) : P (s.withListBottom x2 a2 k) :=
  K.requireEven (K.readByte hs fun _ _ ht => K.readByte ht fun _ _ hu => K.readByte hu fun _ v hv =>
    K.require rfl fun _ => hk _ _ v hv)

end

/-! ### Results -/

section
variable {r1 : RegNo} {len : Half}

theorem shiftCC (K : Kept I P) (hs : I s) {w : Nat} (r : ShiftResult w) (n : Nat) {u : State} (hm : u.mem = s.mem := by rfl)
    (hp : u.psw = s.psw := by rfl) (hu : SameUnits s u := by exact ⟨rfl, rfl, rfl, rfl, rfl⟩) :
    P (.next ((u.setShiftCC r n).advance len)) := by
  obtain ⟨-, mem, control, -, -, -, -, env, -, -, install⟩ := setShiftCC_keeps u r n
  refine K.done hs ?_ ?_ ?_ ?_
  · exact mem.trans hm
  · exact control.trans (congrArg Psw.control hp)
  · exact congrArg Env.transfers (env.trans hu.2.1)
  · exact install.trans hu.2.2.2.2

theorem branchTo (K : Kept I P) (hs : I s) {taken : Bool} {target : Half} : P (branchTo taken target len s) := by
  cases taken <;> exact K.done hs

theorem divideFaulted (K : Kept I P) (hs : I s) {u : State} (hm : u.mem = s.mem := by rfl)
    (hc : u.psw.control = s.psw.control := by rfl) (ht : u.env.transfers = s.env.transfers := by rfl)
    (hi : u.install = s.install := by rfl) : P (divideFaulted len u s) := by
  unfold Machine.divideFaulted
  split
  · next df => exact K.trap _ hs (.inl ⟨rfl, df⟩)
  · exact K.done hs hm hc ht hi

theorem divideHalf (K : Kept I P) (hs : I s) {d : Half} : P (divideHalf r1 d len s) := by
  unfold Machine.divideHalf
  dsimp only
  split
  · exact K.divideFaulted hs
  · exact K.done hs

theorem divideFull (K : Kept I P) (hs : I s) {d : Full} : P (divideFull r1 d len s) := by
  unfold Machine.divideFull
  dsimp only
  split
  · exact K.divideFaulted hs
  · exact K.done hs

theorem floatTrap (K : Kept I P) (hs : I s) (fault : Bool) : P (s.floatTrap fault) := by
  unfold State.floatTrap
  split
  · next enabled => exact K.trap _ hs (.inr ⟨rfl, (Bool.and_eq_true _ _ ▸ enabled).2⟩)
  · exact K.next hs

theorem floatComplete (K : Kept I P) (hs : I s) {chart : FloatChart} {r : FloatResult} :
    P (floatComplete chart r1 r len s) := by
  have rest (t : State) (ht : I t) : P (((t.setFloatCC chart r).advance len).floatTrap r.isFault) :=
    K.floatTrap (s := (t.setFloatCC chart r).advance len) (K.congr ht rfl rfl rfl rfl) _
  unfold Machine.floatComplete State.writeFloatResult
  split
  · exact K.writeFull hs rest
  · exact rest s hs

theorem floatArithmetic (K : Kept I P) (hs : I s) {f : Full → Full → FloatResult} {chart : FloatChart} {a b : Full} :
    P (floatArithmetic f chart r1 a b len s) := by
  unfold Machine.floatArithmetic
  split
  · exact K.floatComplete hs
  · exact K.writeFull hs fun t ht => K.done ht

theorem floatCompare (K : Kept I P) (hs : I s) {a b : Full} : P (floatCompare a b len s) := by
  unfold Machine.floatCompare
  split <;> exact K.done hs

theorem arcSine (K : Kept I P) (hs : I s) {z y : Full} : P (arcSine r1 z y len s) := by
  unfold Machine.arcSine
  split <;> exact K.done hs

theorem arcTangent (K : Kept I P) (hs : I s) {x y : Full} : P (arcTangent r1 x y len s) := by
  unfold Machine.arcTangent
  split
  · exact K.done hs
  · split <;> exact K.done hs

theorem rootOfDifference (K : Kept I P) (hs : I s) {x y : Full} : P (rootOfDifference r1 x y len s) := by
  unfold Machine.rootOfDifference
  split
  · exact K.done hs
  · split <;> exact K.done hs

theorem store (K : Kept I P) (hs : I s) {b : BankNo} {x2 : RegNo} {a2 : Half} : P (storeToBank b r1 x2 a2 s) :=
  K.requireEven (K.writeHalf hs fun _ ht => K.done ht)

/-- A list instruction: the flag of a full or an empty list, or the transfers of an element. -/
theorem listOperation (K : Kept I P) {t : State} (ht : I t) {c : Prop} [Decidable c] {k : Outcome} (hk : P k) :
    P (if c then listFlagged t else k) := by
  split
  · exact K.done ht
  · exact hk

end

/-! ### Fields -/

section
variable {r1 r2 : RegNo} {k : Outcome}

theorem evenR1 (h : EvenReg r1) (hk : P k) : P (requireR1Even r1 k) := by rwa [requireR1Even_even h]

theorem evenPair (h : EvenReg r1 ∧ EvenReg r2) (hk : P k) : P (requireEvenPair r1 r2 k) := by
  rwa [requireEvenPair_even h.1 h.2]

theorem quad (h : QuadReg r1) (hk : P k) : P (requireQuad r1 k) := by rwa [requireQuad_quad h]

theorem fieldOk {ok : Bool} {why : Refusal} (h : ok = true) (hk : P k) : P (Machine.require ok why k) := by rwa [h]

end

/-! ### The instructions -/

/-- The instructions that are not privileged, SVC apart, with fields that break no restriction. -/
theorem exec (K : Kept I P) {i : Instr} (hs : I s) (w : WellFormed i)
    (rest : (Privileged i ∨ ∃ r1 x2 i2, i = .svc r1 x2 i2) → P (exec i s)) : P (exec i s) := by
  cases i <;> dsimp only [Machine.exec]
  case air r1 r2 | ssr r1 r2 | ocr r1 r2 | rdr r1 r2 | wdr r1 r2 | rhr r1 r2 | whr r1 r2 | rbr r1 r2 | wbr r1 r2
    | epsr r1 r2 =>
    exact rest (.inl ⟨r1, r2, 0, by simp [privilegedSet]⟩)
  case ai r1 x2 a | ss r1 x2 a | oc r1 x2 a | rd r1 x2 a | wd r1 x2 a | rh r1 x2 a | wh r1 x2 a | al r1 x2 a | rb r1 x2 a
    | wb r1 x2 a | lpsw r1 x2 a | sint r1 x2 a | sesb r1 x2 a | resb r1 x2 a =>
    exact rest (.inl ⟨r1, x2, a, by simp [privilegedSet]⟩)
  case svc r1 x2 a => exact rest (.inr ⟨r1, x2, a, rfl⟩)
  -- registers and immediate operands
  case balr | bal | epor | nhr | ohr | xhr | lhr | ahr | shr | achr | schr | clhr | chr | lcnhr | lavr | lchr | lis | lcs | ais
    | sis | stbr | lbr | exbr | thi | nhi | ohi | xhi | clhi | chi | lhi | ahi | shi | ecpr =>
    exact K.done hs
  case lfr | cfr | afr | sfr | mfr | dfr | stf | lf | cf | af | sf | mf | df => exact K.done hs
  case btcr | bfcr | btc | bfc | btbs | btfs | bfbs | bffs => exact K.branchTo hs
  case bxh | bxle =>
    exact fieldOk (BitVec.ule_iff_toNat_le.2 (ofR1Above_eq_nil.1 w)) (K.branchTo (s := s.setReg _ _) (K.congr hs rfl rfl rfl rfl))
  case eppr => exact fieldOk (BitVec.ule_iff_toNat_le.2 (ofR1Above_eq_nil.1 w)) (K.done hs)
  case ldpr | adpr | sdpr | cldpr | cdpr => exact evenPair (oddPair_eq_nil.1 w) (K.done hs)
  case mhr | mhur | rll | rrl => exact evenR1 (ofOddR1_eq_nil.1 w) (K.done hs)
  case dhr => exact evenR1 (ofOddR1_eq_nil.1 w) (K.divideHalf hs)
  case mdpr => exact quad (oddQuadPair_eq_nil.1 w).1 (fieldOk (isEven_even (oddQuadPair_eq_nil.1 w).2) (K.done hs))
  case ddpr => exact quad (oddQuadPair_eq_nil.1 w).1 (fieldOk (isEven_even (oddQuadPair_eq_nil.1 w).2) (K.divideFull hs))
  -- shifts
  case slls | srls | slhl | srhl | slha | srha => exact K.shiftCC hs _ _
  case sll | srl | sla | sra => exact evenR1 (ofOddR1_eq_nil.1 w) (K.shiftCC hs _ _)
  case slql | srql | slqa | srqa => exact quad (oddQuad_eq_nil.1 w) (K.shiftCC hs _ _)
  -- operands in memory
  case nh | oh | xh | clh | ch | ah | sh | ach | sch | lcnh | lav | lch => exact K.halfOperand hs fun _ _ ht => K.done ht
  case lh | lh0 | lh1 | lh2 | lh3 => exact K.requireEven (K.readHalf hs fun _ _ ht => K.done ht)
  case lb | clb => exact K.byteOperand hs fun _ _ ht => K.done ht
  case mh | mhu => exact evenR1 (ofOddR1_eq_nil.1 w) (K.halfOperand hs fun _ _ ht => K.done ht)
  case dh => exact evenR1 (ofOddR1_eq_nil.1 w) (K.halfOperand hs fun _ _ ht => K.divideHalf ht)
  case ldp | adp | sdp | cldp | cdp => exact evenR1 (ofOddR1_eq_nil.1 w) (K.fullOperand hs fun _ _ ht => K.done ht)
  case mdp | cos => exact quad (oddQuad_eq_nil.1 w) (K.fullOperand hs fun _ _ ht => K.done ht)
  case ddp => exact quad (oddQuad_eq_nil.1 w) (K.fullOperand hs fun _ _ ht => K.divideFull ht)
  case lm => exact K.requireEven (K.loadMultiple hs fun _ ht => K.done ht)
  -- stores
  case sth | sth0 | sth1 | sth2 | sth3 => exact K.store hs
  case stb => exact K.writeByte hs fun _ ht => K.done ht
  case stm => exact K.requireEven (K.storeMultiple hs fun _ ht => K.done ht)
  case stdp => exact evenR1 (ofOddR1_eq_nil.1 w) (K.requireEven (K.writeFull hs fun _ ht => K.done ht))
  case ahm => exact K.halfOperand hs fun _ _ ht => K.writeHalf ht fun _ hu => K.done hu
  -- lists
  case atl =>
    exact K.withListTop hs fun _ _ _ ht => K.listOperation ht <|
      K.writeByte ht fun _ hu => K.writeByte hu fun _ hv => K.writeHalf hv fun _ hx => K.done hx
  case abl =>
    exact K.withListBottom hs fun _ _ _ ht => K.listOperation ht <|
      K.writeHalf ht fun _ hu => K.writeByte hu fun _ hv => K.writeByte hv fun _ hx => K.done hx
  case rtl =>
    exact K.withListTop hs fun _ _ _ ht => K.listOperation ht <| K.readHalf ht fun _ _ hu =>
      K.writeByte (s := State.setReg _ _ _) (K.congr hu rfl rfl rfl rfl) fun _ hv => K.writeByte hv fun _ hx => K.done hx
  case rbl =>
    exact K.withListBottom hs fun _ _ _ ht => K.listOperation ht <| K.readHalf ht fun _ _ hu =>
      K.writeByte (s := State.setReg _ _ _) (K.congr hu rfl rfl rfl rfl) fun _ hv => K.writeByte hv fun _ hx => K.done hx
  -- floating point
  case ler => exact evenPair (oddPair_eq_nil.1 w) (K.readFull hs fun _ _ ht => K.floatComplete ht)
  case le => exact evenR1 (ofOddR1_eq_nil.1 w) (K.fullOperand hs fun _ _ ht => K.floatComplete ht)
  case ste =>
    exact evenR1 (ofOddR1_eq_nil.1 w) (K.requireEven (K.readFull hs fun _ _ ht => K.writeFull ht fun _ hu => K.done hu))
  case aer | ser | mer | der => exact K.floatRegisters hs (oddPair_eq_nil.1 w) fun _ _ _ ht => K.floatArithmetic ht
  case ae | se | me | de => exact K.floatOperands hs (ofOddR1_eq_nil.1 w) fun _ _ _ ht => K.floatArithmetic ht
  case cer => exact K.floatRegisters hs (oddPair_eq_nil.1 w) fun _ _ _ ht => K.floatCompare ht
  case ce => exact K.floatOperands hs (ofOddR1_eq_nil.1 w) fun _ _ _ ht => K.floatCompare ht
  -- the trigonometric option
  case cosr => exact quad (oddQuadPair_eq_nil.1 w).1 (fieldOk (isEven_even (oddQuadPair_eq_nil.1 w).2) (K.done hs))
  case asnr =>
    have ⟨even, four⟩ := oddQuadR2_eq_nil.1 w
    exact evenR1 (ofOddR1_eq_nil.1 even) (fieldOk (isQuad_iff.2 four) (K.arcSine hs))
  case sqdr =>
    have ⟨even, four⟩ := oddQuadR2_eq_nil.1 w
    exact evenR1 (ofOddR1_eq_nil.1 even) (fieldOk (isQuad_iff.2 four) (K.rootOfDifference hs))
  case atnr =>
    have ⟨four1, four2⟩ := oddQuadR2_eq_nil.1 w
    exact quad (oddQuad_eq_nil.1 four1) (fieldOk (isQuad_iff.2 four2) (K.arcTangent hs))
  case asn => exact evenR1 (ofOddR1_eq_nil.1 w) (K.withScalars hs fun _ _ _ ht => K.arcSine ht)
  case sqd => exact evenR1 (ofOddR1_eq_nil.1 w) (K.withScalars hs fun _ _ _ ht => K.rootOfDifference ht)
  case atn => exact quad (oddQuad_eq_nil.1 w) (K.withScalars hs fun _ _ _ ht => K.arcTangent ht)

end Kept

/-- `I` is kept by a change of PSW bits 0:7 too. -/
structure KeptAll (I : State → Prop) (P : Outcome → Prop) : Prop extends Kept I P where
  /-- Any PSW may have been loaded. -/
  setPsw : ∀ {s : State} (p : Psw), I s → I (s.setPsw p)

namespace KeptAll

variable {I : State → Prop} {P : Outcome → Prop} {s : State}

/-! ### Exchanges -/

theorem loadPsw (K : KeptAll I P) (hs : I s) {b : BankNo} {a : Half} {k : State → Outcome} (hk : ∀ t, I t → P (k t)) :
    P (s.loadPsw b a k) := K.readFull hs fun _ _ ht => hk _ (K.setPsw _ ht)

theorem exchange (K : KeptAll I P) (hs : I s) {i : Interrupt} {a : Half} {k : State → Outcome}
    (hk : ∀ t, I t → P (k t)) : P (s.exchange i a k) := K.writeFull hs fun _ ht => K.loadPsw ht hk

theorem raise (K : KeptAll I P) (hs : I s) {i : Interrupt} {a : Half} : P (s.raise i a) :=
  K.exchange hs fun _ => K.next

theorem privileged (K : KeptAll I P) (hs : I s) {k : Outcome} (hk : P k) : P (s.privileged k) := by
  unfold State.privileged
  split
  · exact K.raise hs
  · exact hk

theorem testQueue (K : KeptAll I P) (hs : I s) : P s.testQueue := by
  unfold State.testQueue
  split
  · exact K.raise hs
  · exact K.next hs

theorem serviceDevice (K : KeptAll I P) (hs : I s) {d : Byte} {a : Half} : P (s.serviceDevice d a) :=
  K.readHalf hs fun _ _ ht => K.require rfl fun _ => K.writeFull ht fun _ hu => K.readHalf hu fun _ _ hv =>
    K.done (K.setPsw _ hv)

theorem changeControl (K : KeptAll I P) (hs : I s) {r1 x2 : RegNo} {bits : Byte} (zero : r1 = 0 ∧ x2 = 0) :
    P (changeControl r1 x2 bits s) :=
  K.privileged hs (Kept.fieldOk (decide_eq_true zero.1) (Kept.fieldOk (decide_eq_true zero.2)
    (K.done (K.setPsw _ hs))))

/-! ### Devices -/

section
variable {r1 x2 : RegNo} {a2 : Half} {d : Byte} {len : Half} {b : BankNo} {a : Half} {n : Nat}

theorem withDevice (K : KeptAll I P) {k : Byte → Outcome} (hk : ∀ d, P (k d)) : P (s.withDevice r1 k) :=
  K.require rfl fun _ => hk _

theorem selected (K : KeptAll I P) (hs : I s) {late sync : State → Outcome} (hl : ∀ t, I t → P (late t))
    (hk : ∀ t, I t → P (sync t)) : P (s.selected d late sync) := by
  have ht : I (s.afterSelect d) := K.congr hs rfl rfl rfl rfl
  unfold State.selected
  split
  · exact hk _ ht
  · exact hl _ ht

theorem timedOutByte (K : KeptAll I P) (hs : I s) : P (timedOutByte b a len s) :=
  K.writeByte hs fun _ ht => K.done ht

theorem readBlock (K : KeptAll I P) (hs : I s) : P (State.readBlock b d len n a s) := by
  induction n generalizing s a with
  | zero => exact K.done hs
  | succ n ih =>
    unfold State.readBlock
    dsimp only
    split
    · exact K.done hs
    · exact K.writeByte (s := (s.afterStatus d).afterRead d) (K.congr hs rfl rfl rfl rfl) fun _ ht => ih ht

theorem writeBlock (K : KeptAll I P) (hs : I s) : P (State.writeBlock b d len n a s) := by
  induction n generalizing s a with
  | zero => exact K.done hs
  | succ n ih =>
    unfold State.writeBlock
    dsimp only
    split
    · exact K.done hs
    · exact K.readByte (s := s.afterStatus d) (K.congr hs rfl rfl rfl rfl) fun v t ht =>
        ih (s := t.called (.write d v)) (K.congr ht rfl rfl rfl rfl)

theorem autoload (K : KeptAll I P) (hs : I s) {last : Half} {leader : Bool} : P (State.autoload d last n leader a s) := by
  induction n generalizing s leader a with
  | zero => exact K.done hs
  | succ n ih =>
    have hu : I ((s.afterStatus d).afterRead d) := K.congr hs rfl rfl rfl rfl
    unfold State.autoload
    dsimp only
    split
    · exact K.done hs
    · split
      · exact ih hu
      · refine K.writeByte hu fun _ ht => ?_
        split
        · exact K.done ht
        · exact ih ht

theorem block (K : KeptAll I P) (hs : I s) {loop : BankNo → Byte → Half → Nat → Half → State → Outcome}
    (hloop : ∀ b n a t, I t → P (loop b d len n a t)) {start last : Half} : P (s.block loop d start last len) := by
  unfold State.block
  split
  · exact K.done hs
  · exact K.selected hs (fun _ ht => K.done ht) fun _ ht => hloop _ _ _ _ ht

theorem withLimits (K : KeptAll I P) (hs : I s) {k : Byte → Half → Half → State → Outcome}
    (hk : ∀ d start last t, I t → P (k d start last t)) : P (s.withLimits r1 x2 a2 k) :=
  K.requireEven (K.withDevice fun _ => K.readHalf hs fun _ _ ht => K.readHalf ht fun _ _ hu => hk _ _ _ _ hu)

end

/-! ### The instructions -/

/-- The instructions that are left, privileged and SVC. -/
theorem exec (K : KeptAll I P) {i : Instr} (hs : I s) (w : WellFormed i) : P (exec i s) := by
  refine K.toKept.exec hs w fun special => ?_
  cases i <;> dsimp only [Machine.exec]
  case svc =>
    exact K.writeHalf hs fun _ ht => K.writeFull ht fun _ hu => K.readHalf hu fun _ _ hv => K.readHalf hv fun _ _ hx =>
      K.done (K.setPsw _ hx)
  case lpsw =>
    exact K.privileged hs (Kept.fieldOk (decide_eq_true (ofR1NotZero_eq_nil.1 w))
      (K.requireEven (K.loadPsw hs fun _ => K.testQueue)))
  case epsr r1 r2 =>
    have ht : I (s.setReg r1 s.psw.status) := K.congr hs rfl rfl rfl rfl
    exact K.privileged hs (K.testQueue (K.congr (K.setPsw _ ht) rfl rfl rfl rfl))
  case sint => exact K.privileged hs (Kept.fieldOk (decide_eq_true (ofR1NotZero_eq_nil.1 w)) (K.serviceDevice hs))
  case sesb | resb => exact K.changeControl hs (notZeroPair_eq_nil.1 w)
  -- acknowledges
  case air =>
    refine K.privileged hs ?_
    split
    · exact K.done hs
    · exact K.done hs
  case ai r1 x2 a2 =>
    have hu : I s.afterAcknowledge := K.congr hs rfl rfl rfl rfl
    refine K.privileged hs ?_
    split
    · exact K.timedOutByte (s := s.afterAcknowledge.lateRegister r1) (K.congr hu rfl rfl rfl rfl)
    · exact K.writeByte (s := s.afterAcknowledge.setReg r1 _) (K.congr hu rfl rfl rfl rfl) fun _ ht => K.done ht
  -- registers
  case ssr | rdr | rhr | ocr | wdr | whr =>
    exact K.privileged hs (K.withDevice fun _ => K.selected hs (fun _ ht => K.done ht) fun _ ht => K.done ht)
  -- memory
  case ss =>
    exact K.privileged hs (K.withDevice fun d => K.selected hs (fun _ ht => K.timedOutByte ht) fun t ht =>
      K.writeByte (s := t.afterStatus d) (K.congr ht rfl rfl rfl rfl) fun _ hu => K.done hu)
  case rd =>
    exact K.privileged hs (K.withDevice fun d => K.selected hs (fun _ ht => K.timedOutByte ht) fun t ht =>
      K.writeByte (s := t.afterRead d) (K.congr ht rfl rfl rfl rfl) fun _ hu => K.done hu)
  case rh =>
    exact K.privileged hs (K.requireEven (K.withDevice fun d =>
      K.selected hs (fun _ ht => K.writeHalf ht fun _ hu => K.done hu) fun t ht =>
        K.writeHalf (s := t.afterReadHalf d) (K.congr ht rfl rfl rfl rfl) fun _ hu => K.done hu))
  case oc | wd =>
    exact K.privileged hs (K.withDevice fun _ => K.byteOperand hs fun _ _ ht =>
      K.selected ht (fun _ hu => K.done hu) fun _ hu => K.done hu)
  case wh =>
    exact K.privileged hs (K.requireEven (K.withDevice fun _ => K.readHalf hs fun _ _ ht =>
      K.selected ht (fun _ hu => K.done hu) fun _ hu => K.done hu))
  -- blocks
  case rbr =>
    exact K.privileged hs (Kept.fieldOk (BitVec.ule_iff_toNat_le.2 (ofR2Above_eq_nil.1 w)) (K.withDevice fun _ =>
      K.block hs fun _ _ _ _ ht => K.readBlock ht))
  case wbr =>
    exact K.privileged hs (Kept.fieldOk (BitVec.ule_iff_toNat_le.2 (ofR2Above_eq_nil.1 w)) (K.withDevice fun _ =>
      K.block hs fun _ _ _ _ ht => K.writeBlock ht))
  case rb => exact K.privileged hs (K.withLimits hs fun _ _ _ _ ht => K.block ht fun _ _ _ _ hu => K.readBlock hu)
  case wb => exact K.privileged hs (K.withLimits hs fun _ _ _ _ ht => K.block ht fun _ _ _ _ hu => K.writeBlock hu)
  case al =>
    exact K.privileged hs (Kept.fieldOk (decide_eq_true (ofR1NotZero_eq_nil.1 w)) (K.require rfl fun _ =>
      K.readByte hs fun d _ ht => K.readByte ht fun c _ hu => K.selected hu (fun _ hv => K.done hv) fun v hv =>
        K.autoload (s := v.afterCommand d c) (K.congr hv rfl rfl rfl rfl)))
  all_goals exact absurd special (by simp [Privileged, privilegedSet])

end KeptAll

end Sys2Proof.Machine
end

section
/-! SUPPORT. Three properties of every instruction, each from what `Kept` or `KeptAll` says of all the meanings: the
canonical form of memory, the stops for a field, and PSW bits 0:7 in Protect Mode. -/

namespace Sys2Proof.Machine

/-! ## The canonical form of memory -/

/-- No meaning leaves the canonical form: memory is changed by the writes of other agents and by stores of bytes. -/
theorem keptAll_form : KeptAll (fun s => Memory.wf s.mem = true) KeepsForm where
  congr hs hm _ _ _ := hm.symm ▸ hs
  transfer := State.wf_transfer
  storeByte b a v hs := State.wf_storeByte hs b a v
  next := KeepsForm.next
  fault := KeepsForm.fault
  refused _ := KeepsForm.refused _
  trap _ hs _ := KeepsForm.raise hs
  setPsw _ hs := hs

theorem KeepsForm.exec {s : State} (hs : Memory.wf s.mem = true) (i : Instr) : KeepsForm (exec i s) := by
  by_cases w : WellFormed i
  · exact keptAll_form.exec hs w
  by_cases protect : Privileged i ∧ s.psw.control.PM = true
  · obtain ⟨⟨r1, r2, a, member⟩, pm⟩ := protect
    obtain ⟨k, guarded⟩ := exec_eq_privileged member s
    rw [guarded, State.privileged_protect pm]
    exact KeepsForm.raise hs
  · have supervisor (p : Privileged i) : s.psw.control.PM = false := by simpa using fun pm => protect ⟨p, pm⟩
    obtain ⟨r, -, stopped⟩ := restricted_of_not_wellFormed w supervisor
    rw [stopped]
    exact KeepsForm.refused r

theorem State.wf_arrived {s : State} (hs : Memory.wf s.mem = true) : Memory.wf s.arrived.mem = true := by
  unfold State.arrived
  split
  · exact hs
  · exact Memory.wf_agentWrites _ hs _

theorem KeepsForm.fetch {s : State} (hs : Memory.wf s.mem = true) : KeepsForm (s.fetch Machine.exec) := by
  refine KeepsForm.ite (KeepsForm.fault _) (KeepsForm.readHalf hs fun _ t ht => ?_)
  split
  · exact KeepsForm.raise ht
  · refine KeepsForm.ite (KeepsForm.readHalf ht fun _ u hu => ?_) (KeepsForm.exec ht _)
    split
    · exact KeepsForm.raise hu
    · exact KeepsForm.exec hu _

theorem KeepsForm.powerDown {s : State} (hs : Memory.wf s.mem = true) : KeepsForm s.powerDown :=
  KeepsForm.readHalf hs fun _ _ ht => KeepsForm.requireEven (KeepsForm.storeMultiple ht _ _ _ _ fun _ hu =>
    KeepsForm.writeFull hu fun _ hv => KeepsForm.next hv)

/-- What follows the reload of a restart. -/
theorem KeepsForm.resume {s : State} (hs : Memory.wf s.mem = true) : KeepsForm s.powered.resume :=
  have powered : Memory.wf s.powered.mem = true := hs
  KeepsForm.ite (KeepsForm.raise powered) (KeepsForm.next powered).require

theorem KeepsForm.restart {s : State} (hs : Memory.wf s.mem = true) : KeepsForm s.restart :=
  KeepsForm.readHalf hs fun _ _ ht => KeepsForm.requireEven (KeepsForm.loadMultiple ht _ _ _ _ fun _ hu =>
    keptAll_form.loadPsw hu fun _ hv => KeepsForm.resume hv)

theorem KeepsForm.takeImmediate {s : State} (hs : Memory.wf s.mem = true) : KeepsForm s.takeImmediate := by
  unfold State.takeImmediate
  split
  · exact KeepsForm.refused _
  · exact keptAll_form.serviceDevice (s := s.afterAcknowledge) hs

theorem KeepsForm.take {s : State} (hs : Memory.wf s.mem = true) (c : Condition) : KeepsForm (s.take c) := by
  cases c <;> dsimp only [State.take]
  case malfunction k => exact KeepsForm.exchange hs fun t ht => KeepsForm.next (s := t.setCC (k.flag t.psw.cc)) ht
  case external | channelTermination => exact KeepsForm.raise hs
  case immediate => exact KeepsForm.takeImmediate hs
  case queueOverflow => exact KeepsForm.writeHalf hs fun _ ht => KeepsForm.raise ht

theorem KeepsForm.outside {s : State} {b : Boundary} {o : Outcome} (hs : Memory.wf s.mem = true)
    (taken : s.outside b = some o) : KeepsForm o := by
  unfold State.outside at taken
  split at taken
  · split at taken <;> cases taken
    · exact KeepsForm.restart hs
    · exact KeepsForm.refused _
    · exact KeepsForm.next hs
  · split at taken
    · cases taken
      exact KeepsForm.powerDown hs
    · split at taken
      · cases taken
        exact KeepsForm.take hs _
      · split at taken <;> cases taken
        exact KeepsForm.next hs

/-- Settles O52: whatever a step turns out to be, an interrupt, a power sequence, the wait state or an instruction, it
starts from the memory that has arrived and changes it by stores alone. -/
theorem stepKeepsMemoryForm : Obligations.StepKeepsMemoryForm := by
  intro s t hs next
  have arrived := State.wf_arrived hs
  cases what : s.arrived.outside s.boundary with
  | none => exact KeepsForm.fetch arrived t ((step_inside what).symm.trans next)
  | some o => exact KeepsForm.outside arrived what t ((step_outside what).symm.trans next)

/-! ## Stops for a field -/

theorem not_restricted_next {s : State} : ¬Restricted (.next s) := by
  rintro ⟨r, -, ⟨⟩⟩

theorem not_restricted_require {ok : Bool} {why : Refusal} {k : Outcome} (other : why.isRestriction = false)
    (hk : ¬Restricted k) : ¬Restricted (require ok why k) := by
  cases ok with
  | true => exact hk
  | false =>
    rintro ⟨r, restriction, ⟨⟩⟩
    exact Bool.false_ne_true (other.symm.trans restriction)

/-- The exchange of an interrupt stops for absent memory alone. -/
theorem not_restricted_raise {s : State} {k : Interrupt} {a : Half} : ¬Restricted (s.raise k a) :=
  not_restricted_require rfl <| not_restricted_require rfl <| not_restricted_require rfl <|
    not_restricted_require rfl not_restricted_next

/-- With fields that break no restriction no meaning stops for one. -/
theorem keptAll_notRestricted : KeptAll (fun _ => True) fun o => ¬Restricted o :=
  have kept : Kept (fun _ => True) fun o => ¬Restricted o :=
    { congr := fun _ _ _ _ _ => trivial
      transfer := fun _ => trivial
      storeByte := fun _ _ _ _ => trivial
      next := fun _ => not_restricted_next
      fault := by rintro f ⟨r, -, ⟨⟩⟩
      refused := by
        rintro r other ⟨r', restriction, ⟨⟩⟩
        exact Bool.false_ne_true (other.symm.trans restriction)
      trap := fun _ _ _ => not_restricted_raise }
  { kept with setPsw := fun _ _ => trivial }

/-- Settles O50: an ill-formed instruction stops at its own check, and a well-formed one passes every check of a field. -/
theorem restrictedFieldsStop : Obligations.RestrictedFieldsStop := by
  intro i s supervisor
  rw [← restricted_iff]
  exact ⟨fun stopped w => keptAll_notRestricted.exec trivial w stopped,
    fun w => restricted_of_not_wellFormed w fun _ => supervisor⟩

/-! ## PSW bits 0:7 in Protect Mode -/

/-- The interrupts that rule R428 admits for an instruction in Protect Mode, by the control bits it begins with. -/
def AdmittedInProtectMode (c : Control) (k : Interrupt) : Prop :=
  k = .protectMode ∨ (k = .divideFault ∧ c.DF = true) ∨ (k = .floatFault ∧ c.FP = true)

/-- The control bits are as they were, or come from the New PSW of an interrupt that is admitted. -/
def KeepsControl (c : Control) (o : Outcome) : Prop :=
  ∀ t, o = .next t → t.psw.control = c ∨ ∃ k, AdmittedInProtectMode c k ∧ t.psw.full = t.fullAt 0 k.newPsw

theorem keepsControl_raise {c : Control} {s : State} {k : Interrupt} (h : Undisturbed s) (admitted : AdmittedInProtectMode c k)
    (a : Half) : KeepsControl c (s.raise k a) := by
  rw [h.raise]
  rintro t ⟨⟩
  exact .inr ⟨k, admitted, s.exchanged_newPsw k a⟩

/-- An instruction that is neither privileged nor SVC changes the control bits by an arithmetic fault alone. -/
theorem kept_control (c : Control) : Kept (fun s => Undisturbed s ∧ s.psw.control = c) (KeepsControl c) where
  congr hs _ hc ht hi := ⟨⟨ht.trans hs.1.alone, hi ▸ hs.1.fitted⟩, hc.trans hs.2⟩
  transfer hs := hs.1.transfer.symm ▸ hs
  storeByte b a v hs := by
    rw [hs.1.storeByte]
    exact ⟨(State.setByte_undisturbed _ b a v).2 hs.1, hs.2⟩
  next hs := by
    rintro t ⟨⟩
    exact .inl hs.2
  fault _ := fun _ h => by cases h
  refused _ := fun _ h => by cases h
  trap a hs enabled := keepsControl_raise hs.1 (.inr (hs.2 ▸ enabled)) a

/-- Settles O57: in Protect Mode a privileged instruction is the violation, an ill-formed other one stops, and a
well-formed other one keeps the control bits unless it takes a fault that is enabled. -/
theorem protectModeKeepsControl : Obligations.ProtectModeKeepsControl := by
  intro i s t undisturbed protect notSvc next
  suffices KeepsControl s.psw.control (exec i s) from this t next
  by_cases special : Privileged i
  · obtain ⟨r1, r2, w, member⟩ := special
    obtain ⟨k, guarded⟩ := exec_eq_privileged member s
    rw [guarded, State.privileged_protect protect]
    exact keepsControl_raise undisturbed (.inl rfl) _
  by_cases w : WellFormed i
  · exact (kept_control s.psw.control).exec ⟨undisturbed, rfl⟩ w fun excepted =>
      excepted.elim (absurd · special) fun ⟨r1, x2, i2, svc⟩ => absurd svc (notSvc r1 x2 i2)
  · obtain ⟨r, -, stopped⟩ := restricted_of_not_wellFormed w fun p => absurd p special
    rw [stopped]
    rintro t ⟨⟩

end Sys2Proof.Machine
end

section
/-! SUPPORT. The fixed-point arithmetic (41_arithmetic.md): each instruction comes to a shared operation on the value of
its second operand, whatever the form that operand has. -/

namespace Sys2Proof.Machine

variable {i : Instr} {s : State} {r1 r2 x2 : RegNo} {a2 len : Half}

/-- An instruction completes as the operation that it comes to does. -/
theorem completes_of_exec {o : Outcome} {p : State → Prop} (h : exec i s = o) (spec : ∃ t, o = .next t ∧ p t) :
    Completes i s p := by
  unfold Completes
  rwa [h]

/-! ## Operands in memory -/

/-- The halfword operand at an even address, undisturbed (rules R61, R69). -/
theorem Undisturbed.halfOperand_even (h : Undisturbed s) (he : EvenAddress (s.ea x2 a2)) (k : Half → State → Outcome) :
    s.halfOperand x2 a2 k = k (s.halfAt s.psw.OB (s.ea x2 a2)) s := by rw [h.halfOperand, requireEven_even he]

/-- The fullword operand at an even address, undisturbed. -/
theorem Undisturbed.fullOperand_even (h : Undisturbed s) (he : EvenAddress (s.ea x2 a2)) (k : Full → State → Outcome) :
    s.fullOperand x2 a2 k = k (s.fullAt s.psw.OB (s.ea x2 a2)) s := by rw [h.fullOperand, requireEven_even he]

/-! ## Sums and differences -/

theorem addsHalf_of_exec {v : Half} {cin : Bool} (h : exec i s = sumHalf r1 (addN (s.reg r1) v cin) len s) :
    AddsHalf i s r1 v cin len := by
  obtain ⟨t, next, value, cc, rest⟩ := sumHalf_spec r1 (addN (s.reg r1) v cin) len s
  exact ⟨t, h.trans next, value.trans (addN_value ..), cc ▸ showsSum_addN .., rest⟩

theorem subtractsHalf_of_exec {v : Half} {bin : Bool} (h : exec i s = sumHalf r1 (subN (s.reg r1) v bin) len s) :
    SubtractsHalf i s r1 v bin len := by
  obtain ⟨t, next, value, cc, rest⟩ := sumHalf_spec r1 (subN (s.reg r1) v bin) len s
  exact ⟨t, h.trans next, value.trans (subN_value ..), cc ▸ showsDifference_subN .., rest⟩

theorem addsFull_of_exec {v : Full} (h : exec i s = sumFull r1 (addN (s.pair r1) v false) len s) :
    AddsFull i s r1 v len := by
  obtain ⟨t, next, value, cc, rest⟩ := sumFull_spec r1 (addN (s.pair r1) v false) len s
  have sum : (addN (s.pair r1) v false).value = s.pair r1 + v := by simp [addN_value]
  exact ⟨t, h.trans next, value.trans sum, cc ▸ showsSum_addN .., rest⟩

theorem subtractsFull_of_exec {v : Full} (h : exec i s = sumFull r1 (subN (s.pair r1) v false) len s) :
    SubtractsFull i s r1 v len := by
  obtain ⟨t, next, value, cc, rest⟩ := sumFull_spec r1 (subN (s.pair r1) v false) len s
  have difference : (subN (s.pair r1) v false).value = s.pair r1 - v := by simp [subN_value]
  exact ⟨t, h.trans next, value.trans difference, cc ▸ showsDifference_subN .., rest⟩

theorem Undisturbed.exec_ahm (h : Undisturbed s) (he : EvenAddress (s.ea x2 a2)) (r1 : RegNo) :
    let r := addN (s.reg r1) (s.halfAt s.psw.OB (s.ea x2 a2)) false
    exec (.ahm r1 x2 a2) s = .next (((s.setHalf s.psw.OB (s.ea x2 a2) r.value).setCC r.cc).advance 4) := by
  change execAhm r1 x2 a2 s = _
  rw [execAhm, h.halfOperand_even he, h.writeHalf]

/-- Settles O6: six of the seven come to `sumHalf` of an addition, and AHM to the store of one. -/
theorem halfwordAdditions : Obligations.HalfwordAdditions := by
  intro s r1 r2 n x2 w
  refine ⟨addsHalf_of_exec rfl, addsHalf_of_exec rfl, addsHalf_of_exec rfl, addsHalf_of_exec rfl,
    fun h he => ⟨addsHalf_of_exec (h.halfOperand_even he _), addsHalf_of_exec (h.halfOperand_even he _),
      _, h.exec_ahm he r1, ?_, showsSum_addN .., rfl, ?_⟩⟩
  · simp [addN_value]
  · exact (StoreFrame.setHalf s _ _ _).flags rfl rfl rfl rfl rfl ⟨rfl, rfl, rfl, rfl, rfl⟩

/-- Settles O7: each of the six comes to `sumHalf` of a subtraction. -/
theorem halfwordSubtractions : Obligations.HalfwordSubtractions := by
  intro s r1 r2 n x2 w
  exact ⟨subtractsHalf_of_exec rfl, subtractsHalf_of_exec rfl, subtractsHalf_of_exec rfl, subtractsHalf_of_exec rfl,
    fun h he => ⟨subtractsHalf_of_exec (h.halfOperand_even he _), subtractsHalf_of_exec (h.halfOperand_even he _)⟩⟩

/-- Settles O8: each of the four comes to `sumFull` once its register fields have been found even. -/
theorem fullwordSums : Obligations.FullwordSums := by
  intro s r1 r2 x2 a2 even
  exact ⟨fun even2 => ⟨addsFull_of_exec (requireEvenPair_even even even2 _),
      subtractsFull_of_exec (requireEvenPair_even even even2 _)⟩,
    fun h he =>
      ⟨addsFull_of_exec ((requireR1Even_even even _).trans (h.fullOperand_even he _)),
        subtractsFull_of_exec ((requireR1Even_even even _).trans (h.fullOperand_even he _))⟩⟩

/-! ## Products -/

theorem writesPair_of_exec {v : Full} {p : Full → Prop} (h : exec i s = productFull r1 v len s) (hp : p v) :
    WritesPair i s r1 len p := by
  obtain ⟨t, next, value, rest⟩ := productFull_spec r1 v len s
  exact ⟨t, h.trans next, value.symm ▸ hp, rest⟩

theorem writesQuad_of_exec {v : Dbl} {p : Dbl → Prop} (h : exec i s = productDouble r1 v len s) (hp : p v) :
    WritesQuad i s r1 len p := by
  obtain ⟨t, next, value, rest⟩ := productDouble_spec r1 v len s
  exact ⟨t, h.trans next, value.symm ▸ hp, rest⟩

/-- Settles O9: each of the six writes the exact product of its two operands. -/
theorem products : Obligations.Products := by
  intro s r1 r2 x2 a2 m
  have halves (v : Half) : (signedProduct (s.multiplicand r1) v 32).toInt = m.toInt * v.toInt := signedProduct_toInt ..
  have naturals (v : Half) : (unsignedProduct (s.reg (r1 + 1)) v 32).toNat = (s.reg (r1 + 1)).toNat * v.toNat :=
    unsignedProduct_toNat ..
  have fulls (v : Full) : (signedProduct (s.pair (r1 + 2)) v 64).toInt = (s.pair (r1 + 2)).toInt * v.toInt :=
    signedProduct_toInt ..
  refine ⟨fun even => ⟨?_, ?_, fun h he => ⟨?_, ?_⟩⟩, fun quad => ⟨fun even2 => ?_, fun h he => ?_⟩⟩
  · exact writesPair_of_exec (requireR1Even_even even _) (halves _)
  · exact writesPair_of_exec (requireR1Even_even even _) (naturals _)
  · exact writesPair_of_exec ((requireR1Even_even even _).trans (h.halfOperand_even he _)) (halves _)
  · exact writesPair_of_exec ((requireR1Even_even even _).trans (h.halfOperand_even he _)) (naturals _)
  · exact writesQuad_of_exec ((requireQuad_quad quad _).trans (by rw [isEven_even even2, require_true])) (fulls _)
  · exact writesQuad_of_exec ((requireQuad_quad quad _).trans (h.fullOperand_even he _)) (fulls _)

/-! ## Quotients -/

/-- The fault condition fails exactly where the quotient exists and its magnitude fits. -/
theorem divideFaults_eq_false {n : Nat} {dividend divisor : Int} :
    divideFaults n dividend divisor = false ↔ divisor ≠ 0 ∧ (dividend.tdiv divisor).natAbs < 2 ^ (n - 1) := by
  simp [divideFaults]

/-- A number whose magnitude is below half the range is the one that its bits name. -/
theorem toInt_ofInt_of_natAbs_lt {n : Nat} {v : Int} (h : v.natAbs < 2 ^ n) : (BitVec.ofInt (n + 1) v).toInt = v := by
  have bound : (v.natAbs : Int) < 2 ^ n := by exact_mod_cast h
  rw [BitVec.toInt_ofInt, Int.bmod_eq_of_le] <;> push_cast [pow_succ] <;> omega

theorem toInt_eq_zero {n : Nat} {v : BitVec n} : v.toInt = 0 ↔ v = 0 := by
  rw [← BitVec.toInt_inj, BitVec.ofNat_eq_ofNat, BitVec.toInt_zero]

/-- A remainder is smaller than the divisor, so that it fits where the divisor does. -/
theorem natAbs_tmod_lt {n : Nat} (dividend : Int) (d : BitVec (n + 1)) (hd : d ≠ 0) :
    (dividend.tmod d.toInt).natAbs < 2 ^ n := by
  have nonzero : d.toInt ≠ 0 := mt toInt_eq_zero.1 hd
  have smaller : (dividend.tmod d.toInt).natAbs < d.toInt.natAbs := by
    rw [Int.natAbs_tmod]
    exact Nat.mod_lt _ (Int.natAbs_pos.2 nonzero)
  have low := BitVec.le_toInt d
  have high := BitVec.toInt_lt (x := d)
  simp only [Nat.add_sub_cancel] at low high
  have cast : ((2 ^ n : Nat) : Int) = 2 ^ n := by push_cast; rfl
  omega

/-- A divide whose fault condition holds takes the fault with DF set, and writes the result registers with DF reset. -/
theorem divides_of_exec {rs : List RegNo} {fits : Prop} {p : State → Prop} {u : State} (undisturbed : Undisturbed s)
    (faulted : ¬fits → exec i s = divideFaulted len u s) (psw : u.psw = s.psw) (frame : RegisterFrame rs s u)
    (done : fits → ∃ t, exec i s = .next (t.advance len) ∧ p (t.advance len) ∧ t.psw = s.psw ∧ RegisterFrame rs s t) :
    Divides i s rs len fits p := by
  have advanced {t : State} (same : t.psw = s.psw) (f : RegisterFrame rs s t) : (t.advance len).psw.cc = s.psw.cc ∧
      (t.advance len).psw.LOC = s.psw.LOC + len ∧ RegisterFrame rs s (t.advance len) :=
    ⟨(congrArg Psw.cc same : t.psw.cc = s.psw.cc), congrArg (· + len) (congrArg Psw.LOC same), f.afterFlags _ _ rfl rfl rfl⟩
  refine ⟨fun fit => ?_, fun unfit df => ?_, fun unfit df => ?_⟩
  · obtain ⟨t, next, result, same, f⟩ := done fit
    exact ⟨_, next, result, advanced same f⟩
  · exact completes_of_exec ((faulted unfit).trans (if_pos df)) (s.raise_spec undisturbed .divideFault _)
  · exact ⟨_, (faulted unfit).trans (if_neg (by simp [df])), advanced psw frame⟩

theorem dividesHalf_of_exec {d : Half} (undisturbed : Undisturbed s) (h : exec i s = divideHalf r1 d len s) :
    Divides i s [r1, r1 + 1] len (d ≠ 0 ∧ ((s.pair r1).toInt.tdiv d.toInt).natAbs ≤ 32767)
      (fun t => (t.reg (r1 + 1)).toInt = (s.pair r1).toInt.tdiv d.toInt ∧
        (t.reg r1).toInt = (s.pair r1).toInt.tmod d.toInt) := by
  have fits : divideFaults 16 (s.pair r1).toInt d.toInt = false ↔
      d ≠ 0 ∧ ((s.pair r1).toInt.tdiv d.toInt).natAbs ≤ 32767 := by
    rw [divideFaults_eq_false, Ne, toInt_eq_zero]
    exact and_congr_right fun _ => Nat.lt_succ_iff (n := 32767)
  rw [divideHalf] at h
  refine divides_of_exec undisturbed (fun unfit => h.trans (if_pos ?_)) rfl ?_ fun fit => ?_
  · simpa using mt fits.1 unfit
  · exact (RegisterFrame.setPair r1 _ (by simp) (by simp) s).afterFlags _ _ rfl rfl rfl
  · refine ⟨_, h.trans (if_neg (by simp [fits.2 fit])), ⟨?_, ?_⟩, rfl, ?_⟩
    · simpa using toInt_ofInt_of_natAbs_lt (n := 15) (Nat.lt_succ_of_le fit.2)
    · have apart := (regNo_facts r1).1
      simpa [State.reg_setReg, apart] using toInt_ofInt_of_natAbs_lt (n := 15) (natAbs_tmod_lt _ d fit.1)
    · exact (RegisterFrame.setReg r1 _ (by simp) s).trans (RegisterFrame.setReg (r1 + 1) _ (by simp) _)

theorem dividesFull_of_exec {d : Full} (undisturbed : Undisturbed s) (h : exec i s = divideFull r1 d len s) :
    Divides i s [r1, r1 + 1, r1 + 2, r1 + 3] len (d ≠ 0 ∧ ((s.quad r1).toInt.tdiv d.toInt).natAbs ≤ 2147483647)
      (fun t => (t.pair (r1 + 2)).toInt = (s.quad r1).toInt.tdiv d.toInt ∧
        (t.pair r1).toInt = (s.quad r1).toInt.tmod d.toInt) := by
  have fits : divideFaults 32 (s.quad r1).toInt d.toInt = false ↔
      d ≠ 0 ∧ ((s.quad r1).toInt.tdiv d.toInt).natAbs ≤ 2147483647 := by
    rw [divideFaults_eq_false, Ne, toInt_eq_zero]
    exact and_congr_right fun _ => Nat.lt_succ_iff (n := 2147483647)
  rw [divideFull] at h
  refine divides_of_exec undisturbed (fun unfit => h.trans (if_pos ?_)) rfl ?_ fun fit => ?_
  · simpa using mt fits.1 unfit
  · exact (RegisterFrame.setQuad r1 _ (by simp) (by simp) (by simp) (by simp) s).afterFlags _ _ rfl rfl rfl
  · refine ⟨_, h.trans (if_neg (by simp [fits.2 fit])), ⟨?_, ?_⟩, rfl, ?_⟩
    · simpa using toInt_ofInt_of_natAbs_lt (n := 31) (Nat.lt_succ_of_le fit.2)
    · exact (congrArg BitVec.toInt (State.pair_setPair_next s r1 _ _)).trans
        (toInt_ofInt_of_natAbs_lt (n := 31) (natAbs_tmod_lt _ d fit.1))
    · have fourth : r1 + 2 + 1 = r1 + 3 := by bv_omega
      exact (RegisterFrame.setPair r1 _ (by simp) (by simp) s).trans
        (RegisterFrame.setPair (r1 + 2) _ (by simp) (fourth ▸ by simp) _)

/-- Settles O10: each of the four comes to the halfword or the fullword divide once its fields have been checked. -/
theorem quotients : Obligations.Quotients := by
  intro s r1 r2 x2 a2 undisturbed half full
  refine ⟨fun even => ⟨?_, fun he => ?_⟩, fun quad => ⟨fun even2 => ?_, fun he => ?_⟩⟩
  · exact dividesHalf_of_exec undisturbed (requireR1Even_even even _)
  · exact dividesHalf_of_exec undisturbed ((requireR1Even_even even _).trans (undisturbed.halfOperand_even he _))
  · exact dividesFull_of_exec undisturbed
      ((requireQuad_quad quad _).trans (by rw [isEven_even even2, require_true]))
  · exact dividesFull_of_exec undisturbed ((requireQuad_quad quad _).trans (undisturbed.fullOperand_even he _))

end Sys2Proof.Machine
end

section
/-! SUPPORT. The logical and compare instructions (42_logical_compare.md), each through a shared operation on the value of
its second operand, and the no-op codes. -/

namespace Sys2Proof.Machine

variable {i : Instr} {s : State} {r1 : RegNo} {len : Half}

/-! ## Logical results -/

/-- A logical result is written as a halfword load is: into R1, with G and L showing its sign (rules R120, R190). -/
theorem loadsHalf_of_logicalResult {v : Half} (h : exec i s = logicalResult r1 v len s) : LoadsHalf i s r1 v len :=
  loadsHalf_of_exec h

/-- An instruction that comes to the sign chart of a value writes the condition code alone. -/
theorem setsFlags_of_setSignCC {v : Half} (h : exec i s = .next ((s.setSignCC v).advance len)) :
    SetsFlags i s len fun c => ShowsSign c v :=
  ⟨_, h, showsSign_of rfl rfl, rfl, (RegisterFrame.refl [] s).afterFlags _ _ rfl rfl rfl⟩

/-- Settles O11: nine of the ten come to `logicalResult`, and THI to its chart alone. -/
theorem logicalResults : Obligations.LogicalResults := by
  intro s r1 r2 x2 w
  exact ⟨loadsHalf_of_logicalResult rfl, loadsHalf_of_logicalResult rfl, loadsHalf_of_logicalResult rfl,
    loadsHalf_of_logicalResult rfl, loadsHalf_of_logicalResult rfl, loadsHalf_of_logicalResult rfl,
    setsFlags_of_setSignCC rfl, fun h he => ⟨loadsHalf_of_logicalResult (h.halfOperand_even he _),
      loadsHalf_of_logicalResult (h.halfOperand_even he _), loadsHalf_of_logicalResult (h.halfOperand_even he _)⟩⟩

/-! ## Compares -/

theorem setsFlags_of_compareLogical {n : Nat} {a b : BitVec n} (h : exec i s = compareLogical a b len s) :
    SetsFlags i s len fun c => ShowsLogical c a b := completes_of_exec h (compareLogical_spec a b len s)

theorem setsFlags_of_compareAlgebraic {n : Nat} {a b : BitVec n} (h : exec i s = compareAlgebraic a b len s) :
    SetsFlags i s len fun c => ShowsOrder c a b := completes_of_exec h (compareAlgebraic_spec a b len s)

/-- Settles O12: each of the ten comes to one of the two compares, of halfwords or of fullwords. -/
theorem compares : Obligations.Compares := by
  intro s r1 r2 x2 w
  refine ⟨setsFlags_of_compareLogical rfl, setsFlags_of_compareLogical rfl, setsFlags_of_compareAlgebraic rfl,
    setsFlags_of_compareAlgebraic rfl, fun even1 even2 => ⟨?_, ?_⟩, fun h he => ⟨?_, ?_, fun even => ⟨?_, ?_⟩⟩⟩
  · exact setsFlags_of_compareLogical (requireEvenPair_even even1 even2 _)
  · exact setsFlags_of_compareAlgebraic (requireEvenPair_even even1 even2 _)
  · exact setsFlags_of_compareLogical (h.halfOperand_even he _)
  · exact setsFlags_of_compareAlgebraic (h.halfOperand_even he _)
  · exact setsFlags_of_compareLogical ((requireR1Even_even even _).trans (h.fullOperand_even he _))
  · exact setsFlags_of_compareAlgebraic ((requireR1Even_even even _).trans (h.fullOperand_even he _))

/-! ## No-ops -/

/-- An instruction that only goes past itself. -/
theorem goesTo_of_advance (h : exec i s = .next (s.advance len)) : GoesTo i s (s.psw.LOC + len) :=
  ⟨_, h, rfl, rfl, (RegisterFrame.refl [] s).afterFlags _ _ rfl rfl rfl⟩

/-- Settles O29: each of the thirteen is the advance by its length. -/
theorem noOperations : Obligations.NoOperations := by
  intro s r1 r2 w
  constructor <;> intro i member <;> fin_cases member <;> exact goesTo_of_advance rfl

end Sys2Proof.Machine
end

section
/-! SUPPORT. The fullword and doubleword shifts and the rotates (44_shift_rotate.md): the counts are the low five or six
bits of `I2+(X2)`. -/

namespace Sys2Proof.Machine

variable {i : Instr} {s : State} {r1 : RegNo} {operand : Half}

/-! ## From the shared operation to the statement -/

theorem shiftsFull_of_exec {f : Full → Nat → ShiftResult 32} (even : EvenReg r1)
    (h : exec i s = shiftFull f r1 operand s) : ShiftsFull i s r1 (f (s.pair r1) (operand.toNat % 32)).value
      (operand.toNat % 32) (f (s.pair r1) (operand.toNat % 32)).last := by
  have count : (operand.extractLsb' 0 5).toNat = operand.toNat % 32 := BitVec.extractLsb'_toNat ..
  exact completes_of_exec h (count ▸ shiftFull_spec f r1 operand s even)

theorem shiftsDouble_of_exec {f : Dbl → Nat → ShiftResult 64} (quad : QuadReg r1)
    (h : exec i s = shiftDouble f r1 operand s) : ShiftsDouble i s r1 (f (s.quad r1) (operand.toNat % 64)).value
      (operand.toNat % 64) (f (s.quad r1) (operand.toNat % 64)).last := by
  have count : (operand.extractLsb' 0 6).toNat = operand.toNat % 64 := BitVec.extractLsb'_toNat ..
  exact completes_of_exec h (count ▸ shiftDouble_spec f r1 operand s quad)

theorem rotates_of_exec {f : Full → Nat → Full} (even : EvenReg r1) (h : exec i s = rotateFull f r1 operand s) :
    Rotates i s r1 (f (s.pair r1) (operand.toNat % 32)) := by
  have count : (operand.extractLsb' 0 5).toNat = operand.toNat % 32 := BitVec.extractLsb'_toNat ..
  exact completes_of_exec h (count ▸ rotateFull_spec f r1 operand s even)

/-! ## The instructions -/

/-- Settles O17: each of the eight comes to the fullword or the doubleword shift, and the arithmetic left shifts to the
masked form of theirs. -/
theorem wideShifts : Obligations.WideShifts := by
  intro s r1 x2 i2
  refine ⟨fun even => ?_, fun quad => ?_⟩
  · intro v m
    have masked : (shiftLeftArithmetic v m).value = (v &&& 0x80000000) ||| ((v <<< m) &&& 0x7fffffff) :=
      shiftLeftArithmetic_value v m
    exact ⟨shiftsFull_of_exec (f := shiftLeftLogical) even rfl, shiftsFull_of_exec (f := shiftRightLogical) even rfl,
      masked ▸ shiftsFull_of_exec (f := shiftLeftArithmetic) even rfl,
      shiftsFull_of_exec (f := shiftRightArithmetic) even rfl⟩
  · intro v m
    have masked : (shiftLeftArithmetic v m).value =
        (v &&& 0x8000000000000000) ||| ((v <<< m) &&& 0x7fffffffffffffff) := shiftLeftArithmetic_value v m
    exact ⟨shiftsDouble_of_exec (f := shiftLeftLogical) quad rfl, shiftsDouble_of_exec (f := shiftRightLogical) quad rfl,
      masked ▸ shiftsDouble_of_exec (f := shiftLeftArithmetic) quad rfl,
      shiftsDouble_of_exec (f := shiftRightArithmetic) quad rfl⟩

/-- Settles O19: both come to `rotateFull`, whose rotate by fewer than 32 positions is two shifts joined. -/
theorem pairRotates : Obligations.PairRotates := by
  intro s r1 x2 i2 even v m
  have within : m % 32 = m := Nat.mod_mod _ _
  have left : v.rotateLeft m = (v <<< m) ||| (v >>> (32 - m)) := by
    rw [BitVec.rotateLeft, BitVec.rotateLeftAux, within]
  have right : v.rotateRight m = (v >>> m) ||| (v <<< (32 - m)) := by
    rw [BitVec.rotateRight, BitVec.rotateRightAux, within]
  exact ⟨left ▸ rotates_of_exec even rfl, right ▸ rotates_of_exec even rfl⟩

end Sys2Proof.Machine
end

section
/-! SUPPORT. The stores and the transfers of several registers (40_load_store.md), and what the writes of another agent
between two transfers leave of them (20_memory.md rules R68, R76). -/

namespace Sys2Proof.Machine

variable {i : Instr} {s : State} {r1 x2 : RegNo} {a2 : Half} {b : BankNo} {a : Half}

/-! ## Stores -/

/-- An update that leaves the PSW alone, and then the advance. -/
theorem advance_of_psw {u : State} (psw : u.psw = s.psw) (len : Half) : SameModes s (u.advance len) ∧
    (u.advance len).psw.cc = s.psw.cc ∧ (u.advance len).psw.LOC = s.psw.LOC + len := by simp [SameModes, psw]

/-- An instruction that comes to an update of memory and goes on is a store. -/
theorem stores_of_exec {n : Nat} {p : State → Prop} {u : State} (h : exec i s = .next (u.advance 4)) (psw : u.psw = s.psw)
    (frame : StoreFrame b a n s u) (hp : p (u.advance 4)) : Stores i s b a n p :=
  have ⟨_, cc, loc⟩ := advance_of_psw psw 4
  ⟨_, h, hp, cc, loc, frame.flags rfl rfl rfl rfl rfl ⟨rfl, rfl, rfl, rfl, rfl⟩⟩

/-- A halfword store through any bank (rules R134, R135). -/
theorem Undisturbed.storeToBank_eq (h : Undisturbed s) (b : BankNo) (r1 : RegNo) (he : EvenAddress (s.ea x2 a2)) :
    storeToBank b r1 x2 a2 s = .next ((s.setHalf b (s.ea x2 a2) (s.reg r1)).advance 4) := by
  rw [storeToBank, requireEven_even he, h.writeHalf]

theorem Undisturbed.exec_stdp (h : Undisturbed s) (he : EvenAddress (s.ea x2 a2)) (hr : EvenReg r1) :
    exec (.stdp r1 x2 a2) s = .next ((s.setFull s.psw.OB (s.ea x2 a2) (s.pair r1)).advance 4) := by
  change execStdp r1 x2 a2 s = _
  rw [execStdp, requireR1Even_even hr, requireEven_even he, h.writeFull]

theorem Undisturbed.exec_ste (h : Undisturbed s) (he : EvenAddress (s.ea x2 a2)) (hr : EvenReg r1) :
    exec (.ste r1 x2 a2) s = .next ((s.setFull s.psw.OB (s.ea x2 a2) (s.floatReg r1)).advance 4) := by
  change execSte r1 x2 a2 s = _
  rw [execSte, requireR1Even_even hr, requireEven_even he, h.readFloat, h.writeFull]

theorem Undisturbed.exec_stb (h : Undisturbed s) (r1 x2 : RegNo) (a2 : Half) : exec (.stb r1 x2 a2) s =
    .next ((s.setByte s.psw.OB (s.ea x2 a2) ((s.reg r1).setWidth 8)).advance 4) := by
  change execStb r1 x2 a2 s = _
  rw [execStb, h.writeByte, lowByte_eq_setWidth]

/-- Settles O5: each of the eight comes to the update of the bytes that it stores. -/
theorem operandStores : Obligations.OperandStores := by
  intro s r1 x2 a2 h
  have throughBank (he : EvenAddress (s.ea x2 a2)) (i : Instr) (b : BankNo) (hi : exec i s = storeToBank b r1 x2 a2 s) :
      Stores i s b (s.ea x2 a2) 2 fun t => t.halfAt b (s.ea x2 a2) = s.reg r1 :=
    stores_of_exec (hi.trans (h.storeToBank_eq b r1 he)) rfl (StoreFrame.setHalf ..) (by simp)
  refine ⟨fun he => ⟨throughBank he _ _ rfl, throughBank he _ _ rfl, throughBank he _ _ rfl, throughBank he _ _ rfl,
    throughBank he _ _ rfl, fun hr => ⟨?_, ?_⟩⟩, ?_⟩
  · exact stores_of_exec (h.exec_stdp he hr) rfl (StoreFrame.setFull ..) (by simp)
  · exact stores_of_exec (h.exec_ste he hr) rfl (StoreFrame.setFull ..) (by simp [State.floatReg])
  · exact stores_of_exec (h.exec_stb r1 x2 a2) rfl (StoreFrame.setByte ..) (by simp)

/-! ## Load and Store Multiple -/

theorem Undisturbed.exec_lm (h : Undisturbed s) (he : EvenAddress (s.ea x2 a2)) (r1 : RegNo) : exec (.lm r1 x2 a2) s =
    .next ((s.loadedMultiple s.psw.OB (multipleCount r1) r1 (s.ea x2 a2)).advance 4) := by
  change execLm r1 x2 a2 s = _
  rw [execLm, requireEven_even he, h.loadMultiple]

theorem Undisturbed.exec_stm (h : Undisturbed s) (he : EvenAddress (s.ea x2 a2)) (r1 : RegNo) : exec (.stm r1 x2 a2) s =
    .next ((s.storedMultiple s.psw.OB (multipleCount r1) r1 (s.ea x2 a2)).advance 4) := by
  change execStm r1 x2 a2 s = _
  rw [execStm, requireEven_even he, h.storeMultiple]

theorem add_multipleCount (r1 : RegNo) : r1.toNat + multipleCount r1 = 16 := by
  unfold multipleCount
  omega

/-- The update of Store Multiple changes the bytes of its area alone. -/
theorem StoreFrame.storedMultiple (s : State) (b : BankNo) (r : RegNo) (a : Half) :
    StoreFrame b a (2 * multipleCount r) s (s.storedMultiple b (multipleCount r) r a) := by
  obtain ⟨x, psw, units, -⟩ := State.storedMultiple_keeps b (multipleCount r) s r a
  exact ⟨fun q _ => by simp [State.reg, x], State.storedMultiple_outside b _ s r a (Nat.sub_le 16 _),
    ⟨congrArg Psw.control psw, congrArg Psw.IB psw, congrArg Psw.OB psw⟩, units⟩

/-- Settles O3: LM and STM come to the updates of Load and Store Multiple, whose laws say what each register and each
halfword then holds. -/
theorem multipleTransfers : Obligations.MultipleTransfers := by
  intro s r1 x2 a2 h he
  constructor
  · obtain ⟨loaded, others, mem, psw, units⟩ :=
      State.loadedMultiple_spec s.psw.OB (multipleCount r1) s r1 (s.ea x2 a2) (add_multipleCount r1)
    obtain ⟨modes, cc, loc⟩ := advance_of_psw psw 4
    exact ⟨_, h.exec_lm he r1, loaded, others, fun b a => congrArg (Memory.read · (physical b a)) mem, modes, units, cc,
      loc⟩
  · have ⟨_, psw, _⟩ := State.storedMultiple_keeps s.psw.OB (multipleCount r1) s r1 (s.ea x2 a2)
    exact stores_of_exec (h.exec_stm he r1) psw (StoreFrame.storedMultiple ..)
      (State.storedMultiple_stored _ _ s r1 _ (add_multipleCount r1))

/-! ## Another agent between two transfers -/

/-- All of memory is fitted, and `ws` is written before the next transfer. -/
structure Interrupted (s : State) (ws : List AgentWrite) (rest : List (List AgentWrite)) : Prop where
  /-- All of memory is there and takes writes. -/
  fitted : ∀ p < 262144, isWritable s.install p = true
  /-- The queue of writes. -/
  queue : s.env.transfers = ws :: rest

namespace Interrupted

variable {ws : List AgentWrite} {rest : List (List AgentWrite)}

theorem byteAt (h : Interrupted s ws rest) (b : BankNo) (a : Half) : s.transfer.byteAt b a = s.byteAfter ws b a :=
  (State.transfer_spec h.fitted h.queue).1 b a

theorem halfAt (h : Interrupted s ws rest) (b : BankNo) (a : Half) : s.transfer.halfAt b a = s.halfAfter ws b a := by
  rw [State.halfAt, h.byteAt, h.byteAt, State.halfAfter]

theorem transfers (h : Interrupted s ws rest) : s.transfer.env.transfers = rest := by
  rw [(State.transfer_spec h.fitted h.queue).2]

theorem hasHalf (h : Interrupted s ws rest) (b : BankNo) (a : Half) : s.hasHalf b a = true := by
  have present (a : Half) : s.hasByte b a = true := isPresent_of_isWritable (h.fitted _ (physical_lt b a))
  rw [State.hasHalf, present, present, Bool.and_self]

theorem readHalf (h : Interrupted s ws rest) (b : BankNo) (a : Half) (k : Half → State → Outcome) :
    s.readHalf b a k = k (s.halfAfter ws b a) s.transfer := by
  rw [State.readHalf, h.hasHalf, require_true, h.halfAt]

theorem writeHalf (h : Interrupted s ws rest) (b : BankNo) (a v : Half) (k : State → Outcome) :
    s.writeHalf b a v k = k (s.transfer.setHalf b a v) := by
  have stored (t : State) (a : Half) (v : Byte) (ht : t.install = s.install) : t.storeByte b a v = t.setByte b a v :=
    if_pos (ht ▸ h.fitted _ (physical_lt b a))
  rw [State.writeHalf, h.hasHalf, require_true, State.storeHalf, stored _ _ _ s.transfer_install,
    stored (s.transfer.setByte b a _) _ _ s.transfer_install, State.setHalf]

/-- The writes after a transfer come before the next one. -/
theorem next {w1 w2 : List AgentWrite} (h : Interrupted s w1 (w2 :: rest)) : Interrupted s.transfer w2 rest :=
  ⟨by rw [s.transfer_install]; exact h.fitted, h.transfers⟩

/-- What a transfer writes comes between. -/
theorem setHalf (h : Interrupted s ws rest) (b : BankNo) (a v : Half) : Interrupted (s.setHalf b a v) ws rest := ⟨h.1, h.2⟩

theorem setReg (h : Interrupted s ws rest) (r : RegNo) (v : Half) : Interrupted (s.setReg r v) ws rest := ⟨h.1, h.2⟩

section
variable {w1 w2 : List AgentWrite}

/-- Bytes after two transfers. -/
theorem byteAt_twice (h : Interrupted s w1 (w2 :: rest)) (b : BankNo) (a : Half) :
    s.transfer.transfer.byteAt b a = s.byteAfter (w1 ++ w2) b a := by
  rw [h.next.byteAt, State.byteAfter, h.byteAt, State.byteAfter, State.byteAfter, agentByte_append]

theorem halfAfter_twice (h : Interrupted s w1 (w2 :: rest)) (b : BankNo) (a : Half) :
    s.transfer.halfAfter w2 b a = s.halfAfter (w1 ++ w2) b a := by
  rw [← h.next.halfAt, State.halfAt, h.byteAt_twice, h.byteAt_twice, State.halfAfter]

theorem exec_ldp (h : Interrupted s w1 (w2 :: rest)) (he : EvenAddress (s.ea x2 a2)) (hr : EvenReg r1) :
    exec (.ldp r1 x2 a2) s = loadFull r1 (s.halfAfter w1 s.psw.OB (s.ea x2 a2) ++
      s.halfAfter (w1 ++ w2) s.psw.OB (s.ea x2 a2 + 2)) 4 s.transfer.transfer := by
  change execLdp r1 x2 a2 s = _
  rw [execLdp, requireR1Even_even hr, State.fullOperand, State.withFull, requireEven_even he, State.readFull, h.readHalf,
    h.next.readHalf, h.halfAfter_twice]

theorem exec_stdp (h : Interrupted s w1 (w2 :: rest)) (he : EvenAddress (s.ea x2 a2)) (hr : EvenReg r1) :
    exec (.stdp r1 x2 a2) s = .next (((s.transfer.setHalf s.psw.OB (s.ea x2 a2) (s.reg r1)).transfer.setHalf s.psw.OB
      (s.ea x2 a2 + 2) (s.reg (r1 + 1))).advance 4) := by
  have halves : (s.pair r1).extractLsb' 16 16 = s.reg r1 ∧ (s.pair r1).extractLsb' 0 16 = s.reg (r1 + 1) :=
    ⟨append_high .., append_low ..⟩
  change execStdp r1 x2 a2 s = _
  rw [execStdp, requireR1Even_even hr, requireEven_even he, State.writeFull, h.writeHalf, (h.next.setHalf ..).writeHalf,
    halves.1, halves.2]

theorem exec_lm (h : Interrupted s w1 (w2 :: rest)) (he : EvenAddress (s.ea x2 a2)) : exec (.lm 14 x2 a2) s =
    .next (((s.transfer.transfer.setReg 14 (s.halfAfter w1 s.psw.OB (s.ea x2 a2))).setReg 15
      (s.halfAfter (w1 ++ w2) s.psw.OB (s.ea x2 a2 + 2))).advance 4) := by
  change execLm 14 x2 a2 s = _
  have two : multipleCount 14 = 2 := rfl
  rw [execLm, requireEven_even he, two, State.loadMultiple, h.readHalf, State.loadMultiple, (h.next.setReg ..).readHalf,
    State.loadMultiple, State.transfer_setReg]
  have after : (s.transfer.setReg 14 (s.halfAfter w1 s.psw.OB (s.ea x2 a2))).halfAfter w2 s.psw.OB (s.ea x2 a2 + 2) =
      s.halfAfter (w1 ++ w2) s.psw.OB (s.ea x2 a2 + 2) := h.halfAfter_twice _ _
  rw [after]
  rfl

theorem exec_ahm (h : Interrupted s w1 (w2 :: rest)) (he : EvenAddress (s.ea x2 a2)) (r1 : RegNo) :
    let r := addN (s.reg r1) (s.halfAfter w1 s.psw.OB (s.ea x2 a2)) false
    exec (.ahm r1 x2 a2) s =
      .next (((s.transfer.transfer.setHalf s.psw.OB (s.ea x2 a2) r.value).setCC r.cc).advance 4) := by
  change execAhm r1 x2 a2 s = _
  rw [execAhm, State.halfOperand, State.withHalf, requireEven_even he, h.readHalf, h.next.writeHalf]

end

end Interrupted

/-- Settles O4: each of the four is written out with the writes of the other agent before its first and its second
transfer, and each byte is then followed through them. -/
theorem halfwordTransfersInterleave : Obligations.HalfwordTransfersInterleave := by
  intro s r1 x2 a2 w1 w2 rest fitted queue he a ob first second
  have h : Interrupted s w1 (w2 :: rest) := ⟨fitted, queue⟩
  refine ⟨fun hr => ⟨?_, ?_⟩, ?_, ?_⟩
  · obtain ⟨t, next, value, -, loc, frame⟩ := loadFull_spec r1 (first ++ second) 4 s.transfer.transfer
    refine ⟨t, (h.exec_ldp he hr).trans next, value, by simpa using loc, ?_, fun r other => ?_, fun b' a' => ?_⟩
    · rw [frame.units.2.1, h.next.transfers]
    · simpa using frame.regs r other
    · rw [frame.memory, h.byteAt_twice]
  · have h' := h.next.setHalf ob a (s.reg r1)
    refine ⟨_, h.exec_stdp he hr, State.halfAt_setHalf_same .., by simp, h'.transfers, fun r _ => by simp,
      fun k hk => ?_, fun b' a' outside => ?_⟩
    · have before : ¬InSpan ob (a + 2) 2 ob (a + k) := fun inside => by
        obtain ⟨-, inside⟩ := inside
        bv_omega
      rw [State.advance_byteAt, State.byteAt_setHalf_outside _ _ before, h'.byteAt, State.byteAfter,
        State.byteAt_setHalf]
      obtain rfl | rfl : k = 0 ∨ k = 1 := by bv_omega
      · simp
      · simp
    · have first2 : ¬InSpan ob a 2 b' a' := fun ⟨bank, inside⟩ => outside ⟨bank, by omega⟩
      have second2 : ¬InSpan ob (a + 2) 2 b' a' := fun ⟨bank, inside⟩ => outside ⟨bank, by bv_omega⟩
      rw [State.advance_byteAt, State.byteAt_setHalf_outside _ _ second2, h'.byteAt, State.byteAfter,
        State.byteAt_setHalf_outside _ _ first2, ← h.byteAt_twice, h.next.byteAt, State.byteAfter]
  · refine ⟨_, h.exec_lm he, ?_, State.reg_setReg_same .., by simp, h.next.transfers, fun r other => ?_, h.byteAt_twice⟩
    · exact (State.reg_setReg_other _ _ (by decide)).trans (State.reg_setReg_same ..)
    · simp only [List.mem_cons, List.not_mem_nil, or_false, not_or] at other
      rw [State.advance_reg, State.reg_setReg_other _ _ other.2, State.reg_setReg_other _ _ other.1]
      simp
  · refine ⟨_, h.exec_ahm he r1, ?_, showsSum_addN .., by simp, h.next.transfers, fun r _ => by simp,
      fun b' a' outside => ?_⟩
    · simp [addN_value, first, a, ob]
    · rw [State.advance_byteAt, State.setCC_byteAt, State.byteAt_setHalf_outside _ _ outside, h.byteAt_twice]

end Sys2Proof.Machine
end

section
/-! SUPPORT. The index and link branches (45_branch.md rules R270 to R273). -/

namespace Sys2Proof.Machine

variable {s : State} {r1 x2 : RegNo} {a2 : Half}

/-- BXH and BXLE with an R1 that names three registers: a branch from the state with the new index. -/
theorem branchOnIndex_eq (h : r1.toNat ≤ 13) (whenHigh : Bool) (x2 : RegNo) (a2 : Half) :
    let index := s.reg r1 + s.reg (r1 + 1)
    branchOnIndex whenHigh r1 x2 a2 s = branchTo (isHigh s.install.indexCompare index (s.reg (r1 + 2)) == whenHigh)
      (s.ea x2 a2) 4 (s.setReg r1 index) := by
  intro index
  have three : r1.ule 13 = true := BitVec.ule_iff_toNat_le.2 h
  have limit : (s.setReg r1 index).reg (r1 + 2) = s.reg (r1 + 2) := State.reg_setReg_other s _ (regNo_facts r1).2.2.2.2.1
  rw [branchOnIndex, three, require_true, limit]

/-- The index branches write the new index and the location counter. -/
theorem completes_branchOnIndex {i : Instr} {whenHigh high : Bool} {index : Half} (h : r1.toNat ≤ 13)
    (hi : exec i s = branchOnIndex whenHigh r1 x2 a2 s) (sum : s.reg r1 + s.reg (r1 + 1) = index)
    (compared : isHigh s.install.indexCompare index (s.reg (r1 + 2)) = high) :
    Completes i s fun t => t.reg r1 = index ∧
      t.psw.LOC = (if high == whenHigh then s.ea x2 a2 else s.psw.LOC + 4) ∧ t.psw.cc = s.psw.cc ∧
        RegisterFrame [r1] s t := by
  rw [branchOnIndex_eq h, sum, compared] at hi
  obtain ⟨t, next, loc, cc, frame⟩ := branchTo_spec (high == whenHigh) (s.ea x2 a2) 4 (s.setReg r1 index)
  exact ⟨t, hi.trans next, (frame.regs r1 (by simp)).trans (State.reg_setReg_same ..), loc, cc,
    (RegisterFrame.setReg r1 index (by simp) s).trans (frame.mono (by simp))⟩

/-- A branch that links: the address of the next instruction, and a target computed before. -/
theorem completes_link {i : Instr} {len target : Half} (h : exec i s = .next ((s.setReg r1 (s.psw.LOC + len)).jump target)) :
    Completes i s fun t => t.reg r1 = s.psw.LOC + len ∧ t.psw.LOC = target ∧ t.psw.cc = s.psw.cc ∧
      RegisterFrame [r1] s t :=
  ⟨_, h, by simp, rfl, rfl, (RegisterFrame.setReg r1 _ (by simp) s).afterFlags _ _ rfl rfl rfl⟩

/-- Settles O21: BXH and BXLE come to the branch on the new index, BALR and BAL to a link. -/
theorem indexAndLinkBranches : Obligations.IndexAndLinkBranches := by
  intro s r1 r2 x2 a2
  refine ⟨fun h => ?_, completes_link rfl, completes_link rfl⟩
  intro i limit high
  have compared : isHigh s.install.indexCompare i limit = high := by
    simp only [isHigh, high]
    cases s.install.indexCompare <;> rfl
  clear_value high
  have above := completes_branchOnIndex (i := .bxh r1 x2 a2) h rfl rfl compared
  have notAbove := completes_branchOnIndex (i := .bxle r1 x2 a2) h rfl rfl compared
  exact ⟨by cases high <;> exact above, by cases high <;> exact notAbove⟩

end Sys2Proof.Machine
end

section
/-! SUPPORT. Starts of a run, the fetch and the operation codes (30_encoding.md rules R103, R106, 70_reset_and_hazards.md
rule R451). -/

namespace Sys2Proof.Machine

/-! ## Starts -/

/-- The memory of an image is built by writes of bytes inside the 262,144. -/
theorem wf_imageMemory (image : List (BitVec 18 × Byte)) : Memory.wf (imageMemory image) = true := by
  induction image using List.reverseRecOn with
  | nil => rfl
  | append_singleton es e ih =>
    rw [imageMemory, List.foldl_append]
    exact Memory.wf_write e.2 e.1.isLt ih

/-- Settles O53: a launch takes what it is given, and the memory it builds holds the last byte given for each address. -/
theorem startsHaveMemoryForm : Obligations.StartsHaveMemoryForm := by
  refine ⟨State.wf_reset_mem, fun install image regs psw cpr env => ⟨fun even => ?_, fun odd => ?_⟩⟩
  · have counter : ¬psw.LOC.getLsbD 0 = true := by simpa [EvenAddress] using even
    exact ⟨_, if_neg counter, wf_imageMemory image, fun b a => imageMemory_read image _, rfl, rfl, rfl, rfl, rfl, rfl, rfl⟩
  · exact if_pos (by simpa [EvenAddress] using odd)

/-! ## The fetch -/

theorem fetch_eq_exec {s : State} {i : Instr} {rest : List Byte} (h : Undisturbed s) (he : EvenAddress s.psw.LOC)
    (decoded : decodeWith s.install.codes s.fetchBytes = .ok (i, rest)) : s.fetch exec = exec i s := by
  rw [h.fetch he, decoded]

/-- Settles O54: a step with nothing outside is the fetch, which runs what the bytes decode to. -/
theorem stepRunsDecodedInstruction : Obligations.StepRunsDecodedInstruction := by
  intro s i rest
  refine ⟨fun h he inside decoded => ?_, fun h he quiet decoded => ?_, fun odd quiet => ?_⟩
  · rw [step_inside inside]
    exact fetch_eq_exec ((State.arrived_undisturbed s).2 h) (by simpa using he) (by simpa using decoded)
  · rw [step_quiet quiet]
    exact fetch_eq_exec h he decoded
  · rw [step_quiet quiet]
    exact if_pos (by simpa [EvenAddress] using odd)

/-- Settles O55: the decoder computes each of the words. -/
theorem decodedWords : Obligations.DecodedWords := by
  exact ⟨rfl, rfl, rfl, rfl, rfl, rfl, rfl, rfl, rfl, rfl, rfl⟩

/-! ## Unassigned codes -/

/-- A code that the installation assigns to no instruction does not decode: it is a disputed code that the installation
has moved, or the map has no row for it. -/
theorem decodeWith_unassigned {c : Config.OperationCodes} {op : Byte} (h : IsUnassigned c op) (bytes : List Byte) :
    ∃ e, decodeWith c (op :: bytes) = .error e := by
  cases result : decodeWith c (op :: bytes) with
  | error e => exact ⟨e, rfl⟩
  | ok decoded =>
    obtain ⟨notAer, notSrql, notSrqa, listed⟩ := h
    rw [decodeWith, mapCode, if_neg notAer, if_neg notSrql, if_neg notSrqa] at result
    by_cases disputed : op = 0x2a ∨ op = 0xe8 ∨ op = 0xe6
    · rw [if_pos disputed] at result
      cases result
    · rw [if_neg disputed] at result
      obtain ⟨e, encoded, bytes_eq⟩ := decode_eq_ok_iff_encode.1 result
      obtain ⟨op', tail, rfl, assigned⟩ := encode_eq_cons encoded
      obtain ⟨rfl, -⟩ := List.cons.inj bytes_eq
      exact absurd ((List.mem_append.1 listed).resolve_right fun moved => disputed (by simpa [or_comm] using moved)) assigned

/-- Settles O56: the bytes do not decode, so that the fetch takes the exchange. -/
theorem illegalInstructions : Obligations.IllegalInstructions := by
  intro s h quiet he unassigned
  obtain ⟨e, fails⟩ := decodeWith_unassigned unassigned [s.byteAt s.psw.IB (s.psw.LOC + 1),
    s.byteAt s.psw.IB (s.psw.LOC + 2), s.byteAt s.psw.IB (s.psw.LOC + 3)]
  rw [step_quiet quiet, h.fetch he, State.fetchBytes, fails]
  exact s.raise_spec h .illegalInstruction _

end Sys2Proof.Machine
end

section
/-! SUPPORT. The floating-point loads and arithmetic (46_floating_point.md): each instruction comes to the completion of
an outcome, whose laws give the register, the flags and the fault. -/

namespace Sys2Proof.Machine

variable {i : Instr} {s : State} {r1 r2 x2 : RegNo} {a2 len : Half}

theorem FloatCompletes.imp {fault : Bool} {p q : State → Prop} (h : FloatCompletes i s r1 len fault p)
    (pq : ∀ t, p t → q t) : FloatCompletes i s r1 len fault q :=
  have ⟨t, hp, rest⟩ := h
  ⟨t, pq t hp, rest⟩

/-! ## Loads -/

/-- At most one number of shifts brings the first digit of a fraction up. -/
theorem shifts_le {f k k' : Nat} (up : 2 ^ 20 ≤ f * 16 ^ k) (fits : f * 16 ^ k' < 2 ^ 24) : k' ≤ k := by
  by_contra later
  have more : f * 16 ^ (k + 1) ≤ f * 16 ^ k' := Nat.mul_le_mul_left f (Nat.pow_le_pow_right (by decide) (by omega))
  rw [pow_succ, ← mul_assoc] at more
  omega

/-- Normalizing shifts by the number of digits that brings the first digit up. -/
theorem normalizeFloat_eq {e : Int} {f k : Nat} (small : f < 2 ^ 24) (up : 2 ^ 20 ≤ f * 16 ^ k)
    (fits : f * 16 ^ k < 2 ^ 24) : normalizeFloat 6 e f = (e - k, f * 16 ^ k) := by
  have nonzero : f ≠ 0 := by rintro rfl; simp at up
  obtain ⟨k', -, shifted, -⟩ := normalizeFloat_spec 6 e f
  obtain ⟨up', fits'⟩ := normalizeFloat_frac (e := e) nonzero small
  rw [shifted] at up' fits' ⊢
  rw [le_antisymm (shifts_le up fits') (shifts_le up' fits)]

theorem floatLoad_eq_zero {w : Full} (h : (unpackFloat w).frac = 0) : floatLoad w = .zero := by simp [floatLoad, h]

/-- The load of a word whose first digit `k` shifts bring up (rule R287). -/
theorem floatLoad_eq {w : Full} {k : Nat} (up : 2 ^ 20 ≤ (unpackFloat w).frac * 16 ^ k)
    (fits : (unpackFloat w).frac * 16 ^ k < 2 ^ 24) : floatLoad w =
      if (unpackFloat w).exp - k < -64 then .underflow
      else .num (unpackFloat w).neg ((unpackFloat w).exp - k) ((unpackFloat w).frac * 16 ^ k) := by
  have nonzero : (unpackFloat w).frac ≠ 0 := by intro zero; simp [zero] at up
  simp only [floatLoad, nonzero, if_false, normalizeFloat_eq (unpack_frac_lt w) up fits]

/-- An instruction that completes the load of `w` is a floating-point load. -/
theorem floatLoads_of_exec {w : Full} (undisturbed : Undisturbed s)
    (h : exec i s = floatComplete .sum r1 (floatLoad w) len s) : FloatLoads i s r1 w len := by
  refine ⟨fun zero => ?_, fun k up fits => ⟨fun inRange => ?_, fun under => ?_⟩⟩
  · rw [floatLoad_eq_zero zero] at h
    exact (floatComplete_spec i .sum r1 .zero len undisturbed h).imp fun t ⟨outcome, _⟩ => outcome
  · rw [floatLoad_eq up fits, if_neg (not_lt.2 inRange)] at h
    refine (floatComplete_spec i .sum r1 _ len undisturbed h).imp fun t ⟨⟨result, flags⟩, _⟩ => ⟨?_, flags⟩
    have range := unpack_exp_range w
    rw [result, unpack_pack _ _ _ inRange (by omega) fits]
  · rw [floatLoad_eq up fits, if_pos under] at h
    exact (floatComplete_spec i .sum r1 .underflow len undisturbed h).imp fun t ⟨outcome, _⟩ => outcome

theorem Undisturbed.exec_ler (h : Undisturbed s) (even1 : EvenReg r1) (even2 : EvenReg r2) :
    exec (.ler r1 r2) s = floatComplete .sum r1 (floatLoad (s.floatReg r2)) 2 s := by
  change execLer r1 r2 s = _
  rw [execLer, requireEvenPair_even even1 even2, h.readFloat]

/-- Settles O23: LER and LE complete the load of their operand. -/
theorem floatLoadResults : Obligations.FloatLoadResults := by
  intro s r1 r2 x2 a2 h even
  exact ⟨fun even2 => floatLoads_of_exec h (h.exec_ler even even2),
    fun he => floatLoads_of_exec h ((requireR1Even_even even _).trans (h.fullOperand_even he _))⟩

/-! ## Arithmetic -/

theorem Undisturbed.floatRegisters_even (h : Undisturbed s) (even1 : EvenReg r1) (even2 : EvenReg r2)
    (k : Full → Full → State → Outcome) : s.floatRegisters r1 r2 k = k (s.floatReg r1) (s.floatReg r2) s := by
  rw [h.floatRegisters, requireEvenPair_even even1 even2]

theorem Undisturbed.floatOperands_even (h : Undisturbed s) (even : EvenReg r1) (he : EvenAddress (s.ea x2 a2))
    (k : Full → Full → State → Outcome) :
    s.floatOperands r1 x2 a2 k = k (s.floatReg r1) (s.fullAt s.psw.OB (s.ea x2 a2)) s := by
  rw [h.floatOperands, requireR1Even_even even, requireEven_even he]

section
variable {f : Full → Full → FloatResult} {chart : FloatChart} {a b : Full}

/-- What the chart of the instruction adds to the flags of rule R283, on an outcome `r` (rules R290, R296, R298). -/
def FloatChart.Shows (chart : FloatChart) (r : FloatResult) (c : CC) : Prop :=
  match chart with
  | .sum => SumChart r c
  | .product => True
  | .quotient => QuotientChart r c

theorem FloatChart.shows_of_flags {r : FloatResult} {c : CC} (chart : FloatChart) (hC : c.C = s.floatC chart r)
    (hG : c.G = s.floatG chart r) (hL : c.L = s.floatL chart r) : chart.Shows r c := by
  cases chart with
  | sum =>
    rintro neg rfl
    exact ⟨hG, hL⟩
  | product => trivial
  | quotient =>
    refine ⟨?_, ?_⟩
    · rw [hC]
      exact decide_eq_true_iff
    · rintro neg rfl
      rw [hG, hL, State.floatG, State.floatL]
      cases s.undef 1 <;> cases s.undef 2 <;> simp

/-- Arithmetic on normalized operands delivers the outcome of its function. -/
theorem floatArithmetic_of_exec (undisturbed : Undisturbed s) (ha : isNormalized a = true) (hb : isNormalized b = true)
    (h : exec i s = floatArithmetic f chart r1 a b len s) :
    FloatArithmetic i s r1 (f a b) len (chart.Shows (f a b)) := by
  rw [floatArithmetic, ha, hb, Bool.and_self, if_pos rfl] at h
  exact (floatComplete_spec i chart r1 (f a b) len undisturbed h).imp fun t ⟨outcome, hC, _, hG, hL⟩ =>
    ⟨outcome, chart.shows_of_flags hC hG hL⟩

/-- Arithmetic on an operand that is not normalized leaves its results open (rule R282). -/
theorem floatOpen_of_exec (undisturbed : Undisturbed s) (hab : ¬(isNormalized a = true ∧ isNormalized b = true))
    (h : exec i s = floatArithmetic f chart r1 a b len s) : FloatOpen i s r1 len := by
  rw [floatArithmetic, if_neg (by simpa using hab)] at h
  exact floatUndefined_spec i r1 len undisturbed h

/-- So does a compare, of the condition code alone. -/
theorem setsFlags_of_floatCompare_unnormalized (hab : ¬(isNormalized a = true ∧ isNormalized b = true))
    (h : exec i s = floatCompare a b len s) : SetsFlags i s len fun _ => True := by
  rw [floatCompare, if_neg (by simpa using hab)] at h
  exact ⟨_, h, trivial, rfl, (RegisterFrame.refl [] s).afterFlags _ _ rfl rfl rfl⟩

end

/-- Settles O24: each of the eight is arithmetic by the installation's function, which is the reference's by default. -/
theorem floatArithmeticResults : Obligations.FloatArithmeticResults := by
  intro s r1 r2 x2 a2 h even normalized a
  refine ⟨fun even2 normalized2 => ?_, fun he normalized2 => ?_, fun reference a b => ?_⟩
  · have registers {k} := h.floatRegisters_even even even2 k
    exact ⟨floatArithmetic_of_exec (chart := .sum) h normalized normalized2 registers,
      floatArithmetic_of_exec (chart := .sum) h normalized normalized2 registers,
      floatArithmetic_of_exec (chart := .product) h normalized normalized2 registers,
      floatArithmetic_of_exec (chart := .quotient) h normalized normalized2 registers⟩
  · have operands {k} := h.floatOperands_even even he k
    exact ⟨floatArithmetic_of_exec (chart := .sum) h normalized normalized2 operands,
      floatArithmetic_of_exec (chart := .sum) h normalized normalized2 operands,
      floatArithmetic_of_exec (chart := .product) h normalized normalized2 operands,
      floatArithmetic_of_exec (chart := .quotient) h normalized normalized2 operands⟩
  · simp [State.fpAdd, State.fpSub, State.fpMul, State.fpDiv, reference]

/-- Settles O26: each of the eight is open arithmetic, and the compares leave their flags open. -/
theorem floatUnnormalized : Obligations.FloatUnnormalized := by
  intro s r1 r2 x2 a2 h even
  refine ⟨fun even2 unnormalized => ?_, fun he unnormalized => ?_⟩
  · have registers {k} := h.floatRegisters_even even even2 k
    exact ⟨floatOpen_of_exec h unnormalized registers, floatOpen_of_exec h unnormalized registers,
      floatOpen_of_exec h unnormalized registers, floatOpen_of_exec h unnormalized registers,
      setsFlags_of_floatCompare_unnormalized unnormalized registers⟩
  · have operands {k} := h.floatOperands_even even he k
    exact ⟨floatOpen_of_exec h unnormalized operands, floatOpen_of_exec h unnormalized operands,
      floatOpen_of_exec h unnormalized operands, floatOpen_of_exec h unnormalized operands,
      setsFlags_of_floatCompare_unnormalized unnormalized operands⟩

end Sys2Proof.Machine
end

section
/-! SUPPORT. The numbers that floating-point arithmetic delivers (46_floating_point.md rules R283 to R286): normalized and
in range whatever the installation, sums exact where no digit is lost, products and quotients rounded. -/

namespace Sys2Proof.Machine

variable {neg neg' : Bool} {e e' : Int} {f f' : Nat}

/-! ## Finishing -/

/-- Only an exponent in range finishes as a number, which is then the one given. -/
theorem finishFloat_eq_num (h : finishFloat neg e f = .num neg' e' f') :
    neg' = neg ∧ e' = e ∧ f' = f ∧ -64 ≤ e ∧ e ≤ 63 := by
  unfold finishFloat at h
  split_ifs at h
  cases h
  exact ⟨rfl, rfl, rfl, by omega, by omega⟩

/-- A rounded fraction finishes as a number of the same value, in range: carried to 2^24 it is 2^20 with the next
exponent. `c` raises the exponents to natural numbers. -/
theorem finishRounded_eq_num {c : Int} (h : finishRounded neg e f = .num neg' e' f') (low : 2 ^ 20 ≤ f) (high : f ≤ 2 ^ 24)
    (raised : 0 ≤ e + c) : neg' = neg ∧ FloatInRange e' f' ∧
      (f' : Int) * 16 ^ (e' + c).toNat = f * 16 ^ (e + c).toNat ∧
      (16 : Int) ^ (e + c).toNat ≤ 16 ^ (e' + c).toNat := by
  unfold finishRounded at h
  split_ifs at h with carried
  · obtain ⟨rfl, rfl, rfl, inLow, inHigh⟩ := finishFloat_eq_num h
    have next : (e + 1 + c).toNat = (e + c).toNat + 1 := by omega
    have positive : (0 : Int) < 16 ^ (e + c).toNat := by positivity
    refine ⟨rfl, ⟨by omega, by omega, inLow, inHigh⟩, ?_, ?_⟩
    · rw [next, carried, pow_succ]
      push_cast
      ring
    · rw [next, pow_succ]
      omega
  · obtain ⟨rfl, rfl, rfl, inLow, inHigh⟩ := finishFloat_eq_num h
    exact ⟨rfl, ⟨low, by omega, inLow, inHigh⟩, rfl, le_rfl⟩

/-! ## Sums -/

/-- The magnitude of the value of a number, in units of 16^-64 / 2^24. -/
def floatMagnitude (e : Int) (f : Nat) : Int := f * 16 ^ (e + 64).toNat

/-- The value of the parts of a word. -/
def FloatParts.value (p : FloatParts) : Int := if p.neg then -floatMagnitude p.exp p.frac else floatMagnitude p.exp p.frac

theorem floatValue_eq (w : Full) : floatValue w = (unpackFloat w).value := by
  have exponent : ((unpackFloat w).exp + 64).toNat = (w.extractLsb' 24 7).toNat := by
    simp only [unpackFloat, Int.sub_add_cancel, Int.toNat_natCast]
  unfold floatValue FloatParts.value floatMagnitude
  rw [exponent]
  push_cast
  rfl

/-- One more digit to the left is one less in the exponent. -/
theorem floatMagnitude_shift {k : Nat} (h : -64 ≤ e - k) : floatMagnitude (e - k) (f * 16 ^ k) = floatMagnitude e f := by
  have split : (e + 64).toNat = k + (e - k + 64).toNat := by omega
  rw [floatMagnitude, floatMagnitude, split, pow_add]
  push_cast
  ring

/-- A fraction that normalizing and finishing make a number: in range, of the same value. -/
theorem finish_normalize {r : Int × Nat} (hr : normalizeFloat 6 e f = r) (nonzero : f ≠ 0) (small : f < 2 ^ 24)
    (h : finishFloat neg r.1 r.2 = .num neg' e' f') :
    neg' = neg ∧ FloatInRange e' f' ∧ floatMagnitude e' f' = floatMagnitude e f := by
  obtain ⟨up, fits⟩ := normalizeFloat_frac (e := e) nonzero small
  obtain ⟨k, -, shifted, -⟩ := normalizeFloat_spec 6 e f
  obtain ⟨rfl, rfl, rfl, low, high⟩ := finishFloat_eq_num h
  rw [hr] at up fits shifted
  refine ⟨rfl, ⟨up, fits, low, high⟩, ?_⟩
  subst shifted
  exact floatMagnitude_shift low

theorem floatMagnitude_add (e : Int) (f g : Nat) : floatMagnitude e (f + g) = floatMagnitude e f + floatMagnitude e g := by
  simp only [floatMagnitude]
  push_cast
  ring

theorem floatMagnitude_sub (e : Int) {f g : Nat} (h : g ≤ f) :
    floatMagnitude e (f - g) = floatMagnitude e f - floatMagnitude e g := by
  simp only [floatMagnitude, Nat.cast_sub h]
  ring

/-- What rule R284 asks of a sum that is exact: aligning the second fraction loses no digit, nor does a carry. -/
def AlignsExactly (p q : FloatParts) : Prop :=
  let k := (p.exp - q.exp).toNat
  let f := p.frac + q.frac / 16 ^ k
  16 ^ k ∣ q.frac ∧ (p.neg = q.neg → f < 2 ^ 24 ∨ 16 ∣ f)

/-- A fraction that aligning leaves all its digits is of the same value after it. -/
theorem floatMagnitude_aligned {p q : FloatParts} (order : q.exp ≤ p.exp) (low : -64 ≤ q.exp)
    (whole : 16 ^ (p.exp - q.exp).toNat ∣ q.frac) :
    floatMagnitude p.exp (q.frac / 16 ^ (p.exp - q.exp).toNat) = floatMagnitude q.exp q.frac := by
  have exponent : p.exp - ((p.exp - q.exp).toNat : Int) = q.exp := by omega
  have shifted := floatMagnitude_shift (e := p.exp) (f := q.frac / 16 ^ (p.exp - q.exp).toNat)
    (k := (p.exp - q.exp).toNat) (by omega)
  rw [Nat.div_mul_cancel whole, exponent] at shifted
  exact shifted.symm

/-- A number that the sum of aligned operands delivers is in range, and exact where no digit is lost. -/
theorem floatAddAligned_eq_num {p q : FloatParts} (hp : p.frac < 2 ^ 24) (hq : q.frac < 2 ^ 24) (order : q.exp ≤ p.exp)
    (low : -64 ≤ q.exp) (h : floatAddAligned p q = .num neg e f) :
    FloatInRange e f ∧ (AlignsExactly p q → FloatParts.value ⟨neg, e, f⟩ = p.value + q.value) := by
  unfold AlignsExactly floatAddAligned at *
  have aligned := floatMagnitude_aligned order low
  generalize hg : q.frac / 16 ^ (p.exp - q.exp).toNat = g at h aligned ⊢
  have small : g < 2 ^ 24 := hg ▸ (Nat.div_le_self _ _).trans_lt hq
  by_cases same : p.neg = q.neg
  · simp only [same, if_true] at h
    split_ifs at h with zero carry
    · obtain ⟨rfl, rfl, rfl, inLow, inHigh⟩ := finishFloat_eq_num h
      refine ⟨⟨by omega, by omega, inLow, inHigh⟩, fun ⟨whole, kept⟩ => ?_⟩
      have digit : 16 ∣ p.frac + g := hg ▸ (kept same).resolve_left (by omega)
      have shifted := floatMagnitude_shift (e := p.exp + 1) (f := (p.frac + g) / 16) (k := 1) (by push_cast; omega)
      rw [pow_one, Nat.div_mul_cancel digit, Nat.cast_one, add_sub_cancel_right, floatMagnitude_add, aligned whole]
        at shifted
      simp only [FloatParts.value, same, ← shifted]
      split_ifs <;> ring
    · obtain ⟨rfl, range, value⟩ := finish_normalize rfl zero (by omega) h
      refine ⟨range, fun ⟨whole, _⟩ => ?_⟩
      rw [floatMagnitude_add, aligned whole] at value
      simp only [FloatParts.value, same, value]
      split_ifs <;> ring
  · have opposite : q.neg = !p.neg := by
      cases hpn : p.neg <;> cases hqn : q.neg <;> simp [hpn, hqn] at same ⊢
    by_cases less : g ≤ p.frac
    · simp only [same, less, if_true, if_false] at h
      split_ifs at h with zero
      obtain ⟨rfl, range, value⟩ := finish_normalize rfl zero (by omega) h
      refine ⟨range, fun ⟨whole, _⟩ => ?_⟩
      rw [floatMagnitude_sub _ less, aligned whole] at value
      simp only [FloatParts.value, opposite, value]
      cases p.neg <;> simp <;> ring
    · simp only [same, less, if_false] at h
      split_ifs at h with zero
      obtain ⟨rfl, range, value⟩ := finish_normalize rfl zero (by omega) h
      refine ⟨range, fun ⟨whole, _⟩ => ?_⟩
      rw [floatMagnitude_sub _ (le_of_not_ge less), aligned whole] at value
      simp only [FloatParts.value, opposite, value]
      cases p.neg <;> simp <;> ring

theorem keepsDigits_iff {p q : FloatParts} : keepsDigits p q = true ↔ AlignsExactly p q := by
  simp only [keepsDigits, AlignsExactly, Bool.and_eq_true, Bool.or_eq_true, decide_eq_true_eq, or_assoc,
    ← Nat.dvd_iff_mod_eq_zero, imp_iff_not_or, ne_eq]

theorem floatValue_packFloat (range : FloatInRange e f) : floatValue (packFloat neg e f) = FloatParts.value ⟨neg, e, f⟩ := by
  obtain ⟨-, fits, low, high⟩ := range
  rw [floatValue_eq, unpack_pack neg e f low high fits]

/-- A number that the reference sum delivers, whichever operand has the greater exponent. -/
theorem floatAdd_eq_num {a b : Full} (h : floatAdd a b = .num neg e f) : FloatInRange e f ∧
    (sumIsExact a b = true → floatValue (packFloat neg e f) = floatValue a + floatValue b) := by
  have lowA := (unpack_exp_range a).1
  have lowB := (unpack_exp_range b).1
  by_cases greater : (unpackFloat a).exp < (unpackFloat b).exp
  · simp only [floatAdd, sumIsExact, greater, if_true, keepsDigits_iff] at h ⊢
    obtain ⟨range, value⟩ := floatAddAligned_eq_num (unpack_frac_lt b) (unpack_frac_lt a) greater.le lowA h
    exact ⟨range, fun exact => by rw [floatValue_packFloat range, value exact, floatValue_eq, floatValue_eq, add_comm]⟩
  · simp only [floatAdd, sumIsExact, greater, if_false, keepsDigits_iff] at h ⊢
    obtain ⟨range, value⟩ := floatAddAligned_eq_num (unpack_frac_lt a) (unpack_frac_lt b) (not_lt.1 greater) lowB h
    exact ⟨range, fun exact => by rw [floatValue_packFloat range, value exact, floatValue_eq, floatValue_eq]⟩

/-- What is admitted as a sum has the form of an outcome, and is the reference's where that is exact. -/
theorem admittedSum_eq_num {r : FloatResult} {a b : Full} (h : admittedSum r a b = .num neg e f) : FloatInRange e f ∧
    (sumIsExact a b = true → floatValue (packFloat neg e f) = floatValue a + floatValue b) := by
  unfold admittedSum at h
  split_ifs at h with admitted
  · subst h
    simp only [isSumOutcome, Bool.and_eq_true, Bool.not_eq_true', decide_eq_true_eq] at admitted
    obtain ⟨inexact, ⟨⟨low, fits⟩, expLow⟩, expHigh⟩ := admitted
    exact ⟨⟨low, fits, expLow, expHigh⟩, fun exact => absurd (inexact.symm.trans exact) Bool.false_ne_true⟩
  · exact floatAdd_eq_num h

theorem fpAdd_eq_num {s : State} {a b : Full} (h : s.fpAdd a b = .num neg e f) : FloatInRange e f ∧
    (sumIsExact a b = true → floatValue (packFloat neg e f) = floatValue a + floatValue b) := by
  unfold State.fpAdd at h
  split at h
  · exact floatAdd_eq_num h
  · exact admittedSum_eq_num h

/-- A difference is the sum with the sign of the second operand turned. -/
theorem fpSub_eq_num {s : State} {a b : Full} (h : s.fpSub a b = .num neg e f) : FloatInRange e f ∧
    (sumIsExact a (b ^^^ 0x80000000) = true →
      floatValue (packFloat neg e f) = floatValue a + floatValue (b ^^^ 0x80000000)) := by
  unfold State.fpSub at h
  split at h
  · exact floatAdd_eq_num h
  · exact admittedSum_eq_num h

theorem unpackFloat_negated (b : Full) :
    unpackFloat (b ^^^ 0x80000000) = ⟨!(unpackFloat b).neg, (unpackFloat b).exp, (unpackFloat b).frac⟩ := by
  have sign : (b ^^^ 0x80000000).msb = !b.msb := by rw [BitVec.msb_xor, show (0x80000000 : Full).msb = true by rfl, Bool.xor_true]
  have exponent : (b ^^^ 0x80000000).extractLsb' 24 7 = b.extractLsb' 24 7 := by
    rw [BitVec.extractLsb'_xor, show (0x80000000 : Full).extractLsb' 24 7 = 0 by rfl, BitVec.ofNat_eq_ofNat, BitVec.xor_zero]
  have fraction : (b ^^^ 0x80000000).extractLsb' 0 24 = b.extractLsb' 0 24 := by
    rw [BitVec.extractLsb'_xor, show (0x80000000 : Full).extractLsb' 0 24 = 0 by rfl, BitVec.ofNat_eq_ofNat, BitVec.xor_zero]
  simp only [unpackFloat, sign, exponent, fraction]

theorem floatValue_negated (b : Full) : floatValue (b ^^^ 0x80000000) = -floatValue b := by
  rw [floatValue_eq, floatValue_eq, unpackFloat_negated]
  simp only [FloatParts.value]
  cases (unpackFloat b).neg <;> simp

/-- The statement's form of an exact sum. -/
theorem sumIsExact_of_lossless {a b : Full}
    (h : let p := unpackFloat a
      let q := unpackFloat b
      let big := if p.exp < q.exp then q else p
      let small := if p.exp < q.exp then p else q
      let k := (big.exp - small.exp).toNat
      let f := big.frac + small.frac / 16 ^ k
      16 ^ k ∣ small.frac ∧ (p.neg = q.neg → f < 2 ^ 24 ∨ 16 ∣ f)) : sumIsExact a b = true := by
  simp only [sumIsExact]
  split_ifs with greater
  · simp only [greater, if_true] at h
    exact keepsDigits_iff.2 ⟨h.1, fun same => h.2 same.symm⟩
  · simp only [greater, if_false] at h
    exact keepsDigits_iff.2 h

/-- Settles O28: an exact sum is the reference's whatever the installation, and aligning it keeps its value. -/
theorem floatSumsAreExact : Obligations.FloatSumsAreExact := by
  intro s a b neg e f lossless
  refine ⟨fun exact sum => (fpAdd_eq_num sum).2 (sumIsExact_of_lossless exact), fun exact difference => ?_⟩
  rw [(fpSub_eq_num difference).2 (sumIsExact_of_lossless exact), floatValue_negated, sub_eq_add_neg]

/-! ## Products and quotients -/

/-- A rounding to one of the two whole numbers next to `n / d`. -/
def RoundsNear (round : Nat → Nat → Nat) : Prop :=
  ∀ n d, 0 < d → n < d * round n d + d ∧ d * round n d < n + d

theorem roundsNear_nearest : RoundsNear roundNearest := by
  intro n d positive
  obtain ⟨above, below⟩ := roundNearest_near n d positive
  rw [mul_assoc] at above below
  omega

theorem roundsNear_to (up : Bool) : RoundsNear (roundTo up) := roundTo_near up

/-- Rounding stays between whole numbers that the quotient stays between. -/
theorem RoundsNear.bounds {round : Nat → Nat → Nat} (near : RoundsNear round) {n d low high : Nat} (positive : 0 < d)
    (above : d * low ≤ n) (below : n ≤ d * high) : low ≤ round n d ∧ round n d ≤ high := by
  obtain ⟨lower, upper⟩ := near n d positive
  constructor
  · by_contra less
    have : d * (round n d + 1) ≤ d * low := Nat.mul_le_mul_left d (by omega)
    rw [mul_add] at this
    omega
  · by_contra more
    have : d * (high + 1) ≤ d * round n d := Nat.mul_le_mul_left d (by omega)
    rw [mul_add] at this
    omega

/-- How far a rounded quotient is from the exact one, both over the same unit. -/
theorem rounded_error {n d r : Nat} {scale rounded exact unit : Int} (positive : 0 < scale) (hr : rounded = d * r * scale)
    (he : exact = n * scale) (hu : d * scale ≤ unit) :
    (n < d * r + d ∧ d * r < n + d → |rounded - exact| < unit) ∧
      (2 * n < 2 * d * r + d ∧ 2 * d * r ≤ 2 * n + d → 2 * |rounded - exact| ≤ unit) := by
  have difference : |rounded - exact| = |((d * r : Nat) : Int) - n| * scale := by
    rw [hr, he, ← Nat.cast_mul, ← sub_mul, abs_mul, abs_of_pos positive]
  rw [difference]
  constructor
  · rintro ⟨lower, upper⟩
    have near : |((d * r : Nat) : Int) - n| < d := abs_sub_lt_iff.2 ⟨by omega, by omega⟩
    exact (mul_lt_mul_of_pos_right near positive).trans_le hu
  · rintro ⟨lower, upper⟩
    rw [mul_assoc] at lower upper
    have near : 2 * |((d * r : Nat) : Int) - n| ≤ d := by
      rw [← abs_two, ← abs_mul, abs_le]
      omega
    rw [← mul_assoc]
    exact (mul_le_mul_of_nonneg_right near positive.le).trans hu

/-- `rounded` is `exact` with a quotient in it rounded, a unit of whose last place is at most `unit`. -/
def RoundedBy (round : Nat → Nat → Nat) (rounded exact unit : Int) : Prop :=
  ∃ (n d : Nat) (scale : Int), 0 < d ∧ 0 < scale ∧ rounded = d * round n d * scale ∧ exact = n * scale ∧ d * scale ≤ unit

theorem RoundedBy.lt {round : Nat → Nat → Nat} {rounded exact unit : Int} (h : RoundedBy round rounded exact unit)
    (near : RoundsNear round) : |rounded - exact| < unit := by
  obtain ⟨n, d, scale, hd, positive, hr, he, hu⟩ := h
  exact (rounded_error positive hr he hu).1 (near n d hd)

theorem RoundedBy.half {rounded exact unit : Int} (h : RoundedBy roundNearest rounded exact unit) :
    2 * |rounded - exact| ≤ unit := by
  obtain ⟨n, d, scale, hd, positive, hr, he, hu⟩ := h
  exact (rounded_error positive hr he hu).2 (roundNearest_near n d hd)

/-- A normalized operand whose fraction is not zero has six digits. -/
theorem frac_normalized {w : Full} (h : isNormalized w = true) (nonzero : (unpackFloat w).frac ≠ 0) :
    2 ^ 20 ≤ (unpackFloat w).frac := by
  refine ((isNormalized_iff w).1 h).resolve_left ?_
  rintro rfl
  exact nonzero rfl

section
variable {round : Nat → Nat → Nat} {a b : Full}

/-- A product that is a number: its sign, its range and its rounding (rule R285). -/
theorem floatMulBy_eq_num (near : RoundsNear round) (ha : isNormalized a = true) (hb : isNormalized b = true)
    (h : floatMulBy round a b = .num neg e f) :
    let p := unpackFloat a
    let q := unpackFloat b
    neg = (p.neg != q.neg) ∧ FloatInRange e f ∧
      RoundedBy round (f * 2 ^ 24 * 16 ^ (e + 200).toNat) (p.frac * q.frac * 16 ^ (p.exp + q.exp + 200).toNat)
        (2 ^ 24 * 16 ^ (e + 200).toNat) := by
  have digitsP := frac_normalized ha
  have digitsQ := frac_normalized hb
  have fits := Nat.mul_le_mul (unpack_frac_lt a).le (unpack_frac_lt b).le
  simp only [floatMulBy] at h ⊢
  generalize unpackFloat a = p at h digitsP fits ⊢
  generalize unpackFloat b = q at h digitsQ fits ⊢
  split_ifs at h with zero tooHigh tooLow short
  all_goals
    obtain ⟨hp, hq⟩ := not_or.1 zero
    have product := Nat.mul_le_mul (digitsP hp) (digitsQ hq)
  · obtain ⟨low, high⟩ := near.bounds (n := p.frac * q.frac * 16) (d := 2 ^ 24) (low := 2 ^ 20) (high := 2 ^ 24)
      (by decide) (by omega) (by omega)
    obtain ⟨sign, range, same, grows⟩ := finishRounded_eq_num (c := 200) h low high (by omega)
    have next : (p.exp + q.exp + 200).toNat = (p.exp + q.exp - 1 + 200).toNat + 1 := by omega
    refine ⟨sign, range, p.frac * q.frac * 16, 2 ^ 24, 16 ^ (p.exp + q.exp - 1 + 200).toNat, by decide, by positivity, ?_, ?_, ?_⟩
    · calc _ = 2 ^ 24 * (f * 16 ^ (e + 200).toNat : Int) := by ring
        _ = _ := by rw [same]; push_cast; ring
    · rw [next, pow_succ]
      push_cast
      ring
    · push_cast
      omega
  · obtain ⟨low, high⟩ := near.bounds (n := p.frac * q.frac) (d := 2 ^ 24) (low := 2 ^ 20) (high := 2 ^ 24)
      (by decide) (by omega) (by omega)
    obtain ⟨sign, range, same, grows⟩ := finishRounded_eq_num (c := 200) h low high (by omega)
    refine ⟨sign, range, p.frac * q.frac, 2 ^ 24, 16 ^ (p.exp + q.exp + 200).toNat, by decide, by positivity, ?_, ?_, ?_⟩
    · calc _ = 2 ^ 24 * (f * 16 ^ (e + 200).toNat : Int) := by ring
        _ = _ := by rw [same]; push_cast; ring
    · push_cast
      rfl
    · push_cast
      omega

/-- A quotient that is a number: its sign, its range and its rounding (rule R286). -/
theorem floatDivBy_eq_num (near : RoundsNear round) (ha : isNormalized a = true) (hb : isNormalized b = true)
    (h : floatDivBy round a b = .num neg e f) :
    let p := unpackFloat a
    let q := unpackFloat b
    neg = (p.neg != q.neg) ∧ FloatInRange e f ∧
      RoundedBy round (f * q.frac * 16 ^ (e + q.exp + 200).toNat) (p.frac * 2 ^ 24 * 16 ^ (p.exp + 200).toNat)
        (q.frac * 16 ^ (e + q.exp + 200).toNat) := by
  have digitsP := frac_normalized ha
  have digitsQ := frac_normalized hb
  have fitsP := unpack_frac_lt a
  have fitsQ := unpack_frac_lt b
  have expP := (unpack_exp_range a).1
  simp only [floatDivBy] at h ⊢
  generalize unpackFloat a = p at h digitsP fitsP expP ⊢
  generalize unpackFloat b = q at h digitsQ fitsQ ⊢
  split_ifs at h with zero none tooHigh tooLow large
  all_goals
    have lowP := digitsP none
    have lowQ := digitsQ zero
  · obtain ⟨low, high⟩ := near.bounds (n := p.frac * 2 ^ 24) (d := 16 * q.frac) (low := 2 ^ 20) (high := 2 ^ 24)
      (by omega) (by omega) (by omega)
    obtain ⟨sign, range, same, grows⟩ := finishRounded_eq_num (c := q.exp + 200) h low high (by omega)
    have next : (p.exp - q.exp + 1 + (q.exp + 200)).toNat = (p.exp + 200).toNat + 1 := by omega
    rw [next, pow_succ, ← add_assoc] at same grows
    refine ⟨sign, range, p.frac * 2 ^ 24, 16 * q.frac, 16 ^ (p.exp + 200).toNat, by omega, by positivity, ?_, ?_, ?_⟩
    · calc _ = q.frac * (f * 16 ^ (e + q.exp + 200).toNat : Int) := by ring
        _ = _ := by rw [same]; push_cast; ring
    · push_cast
      rfl
    · calc _ = (q.frac * (16 ^ (p.exp + 200).toNat * 16) : Int) := by push_cast; ring
        _ ≤ _ := mul_le_mul_of_nonneg_left grows (by positivity)
  · obtain ⟨low, high⟩ := near.bounds (n := p.frac * 2 ^ 24) (d := q.frac) (low := 2 ^ 20) (high := 2 ^ 24)
      (by omega) (by omega) (by omega)
    obtain ⟨sign, range, same, grows⟩ := finishRounded_eq_num (c := q.exp + 200) h low high (by omega)
    have next : (p.exp - q.exp + (q.exp + 200)).toNat = (p.exp + 200).toNat := by omega
    rw [next, ← add_assoc] at same grows
    refine ⟨sign, range, p.frac * 2 ^ 24, q.frac, 16 ^ (p.exp + 200).toNat, by omega, by positivity, ?_, ?_, ?_⟩
    · calc _ = q.frac * (f * 16 ^ (e + q.exp + 200).toNat : Int) := by ring
        _ = _ := by rw [same]; push_cast; ring
    · push_cast
      rfl
    · exact mul_le_mul_of_nonneg_left grows (by positivity)

end

/-- Settles O18: both installations round near, and the reference to the nearest. -/
theorem floatProductsAreRounded : Obligations.FloatProductsAreRounded := by
  intro s a b neg e f ha hb p q
  refine ⟨fun product => ?_, fun quotient => ?_⟩
  · intro exact rounded unit
    unfold State.fpMul at product
    split at product
    · obtain ⟨sign, -, error⟩ := floatMulBy_eq_num roundsNear_nearest ha hb product
      exact ⟨sign, error.lt roundsNear_nearest, fun _ => error.half⟩
    · next installed =>
      obtain ⟨sign, -, error⟩ := floatMulBy_eq_num (roundsNear_to _) ha hb product
      exact ⟨sign, error.lt (roundsNear_to _), fun reference => by simp [reference] at installed⟩
  · intro exact rounded unit
    unfold State.fpDiv at quotient
    split at quotient
    · obtain ⟨sign, -, error⟩ := floatDivBy_eq_num roundsNear_nearest ha hb quotient
      exact ⟨sign, error.lt roundsNear_nearest, fun _ => error.half⟩
    · next installed =>
      obtain ⟨sign, -, error⟩ := floatDivBy_eq_num (roundsNear_to _) ha hb quotient
      exact ⟨sign, error.lt (roundsNear_to _), fun reference => by simp [reference] at installed⟩

/-! ## Results -/

theorem fpMul_inRange {s : State} {a b : Full} (ha : isNormalized a = true) (hb : isNormalized b = true)
    (h : s.fpMul a b = .num neg e f) : FloatInRange e f := by
  unfold State.fpMul at h
  split at h
  · exact (floatMulBy_eq_num roundsNear_nearest ha hb h).2.1
  · exact (floatMulBy_eq_num (roundsNear_to _) ha hb h).2.1

theorem fpDiv_inRange {s : State} {a b : Full} (ha : isNormalized a = true) (hb : isNormalized b = true)
    (h : s.fpDiv a b = .num neg e f) : FloatInRange e f := by
  unfold State.fpDiv at h
  split at h
  · exact (floatDivBy_eq_num roundsNear_nearest ha hb h).2.1
  · exact (floatDivBy_eq_num (roundsNear_to _) ha hb h).2.1

theorem floatLoad_inRange {w : Full} (h : floatLoad w = .num neg e f) : FloatInRange e f := by
  simp only [floatLoad] at h
  split_ifs at h with zero under
  cases h
  obtain ⟨up, fits⟩ := normalizeFloat_frac (e := (unpackFloat w).exp) zero (unpack_frac_lt w)
  obtain ⟨k, -, shifted, -⟩ := normalizeFloat_spec 6 (unpackFloat w).exp (unpackFloat w).frac
  have high := (unpack_exp_range w).2
  refine ⟨up, fits, not_lt.1 under, ?_⟩
  rw [shifted]
  dsimp only
  omega

/-- Settles O27: each of the five delivers its numbers in range, and those pack into normalized words. -/
theorem floatResultsAreNormalized : Obligations.FloatResultsAreNormalized := by
  intro s a b w neg e f ha hb delivered
  have range : FloatInRange e f := by
    rcases delivered with sum | difference | product | quotient | load
    · exact (fpAdd_eq_num sum).1
    · exact (fpSub_eq_num difference).1
    · exact fpMul_inRange ha hb product
    · exact fpDiv_inRange ha hb quotient
    · exact floatLoad_inRange load
  have ⟨low, fits, expLow, expHigh⟩ := range
  have unpacked := unpack_pack neg e f expLow expHigh fits
  exact ⟨range, (isNormalized_iff _).2 (.inr (by rwa [unpacked])), unpacked⟩

end Sys2Proof.Machine
end

section
/-! SUPPORT. The system control instructions (47_system_control.md) and SESB and RESB (49_list_trig_augment.md), in both
modes. -/

namespace Sys2Proof.Machine

variable {i : Instr} {s : State} {r1 r2 x2 : RegNo} {a2 i2 : Half}

/-! ## Status loads -/

/-- An instruction that comes to the Termination Queue test of a state with another PSW loads a status (rule R316). -/
theorem loadsStatus_of_exec {rs : List RegNo} {p : State → Prop} {t : State} (h : exec i s = t.testQueue)
    (undisturbed : Undisturbed t) (frame : PswFrame rs s t) (hp : p t) : LoadsStatus i s rs p := by
  obtain ⟨taken, passed⟩ := State.testQueue_spec undisturbed
  refine ⟨t, hp, frame, ?_⟩
  by_cases queued : t.psw.control.CT = true ∧ t.env.queueEntry = true
  · exact .inl ⟨queued.1, queued.2, completes_of_exec h (taken queued.1 queued.2)⟩
  · exact .inr ⟨queued, h.trans (passed queued)⟩

/-- A privileged instruction in Supervisor Mode goes on to its meaning. -/
theorem exec_supervisor {k : Outcome} (h : exec i s = s.privileged k) (supervisor : s.psw.control.PM = false) :
    exec i s = k := h.trans (State.privileged_supervisor supervisor k)

theorem exec_lpsw (supervisor : s.psw.control.PM = false) (x2 : RegNo) (a2 : Half) : exec (.lpsw 0 x2 a2) s =
    requireEven (s.ea x2 a2) (s.loadPsw s.psw.OB (s.ea x2 a2) State.testQueue) := exec_supervisor rfl supervisor

theorem exec_lpsw_nonzero (supervisor : s.psw.control.PM = false) (h : r1 ≠ 0) (x2 : RegNo) (a2 : Half) :
    exec (.lpsw r1 x2 a2) s = .refused (.mustBeZero .R1) :=
  (exec_supervisor rfl supervisor).trans (require_fails h _ _)

/-- The state that EPSR tests: the former status in R1, and then the PSW with the status that R2 holds (rule R311). -/
def State.exchangedStatus (s : State) (r1 r2 : RegNo) : State :=
  let t := s.setReg r1 s.psw.status
  (t.setPsw (t.psw.withStatus (t.reg r2))).advance 2

theorem exec_epsr (supervisor : s.psw.control.PM = false) (r1 r2 : RegNo) :
    exec (.epsr r1 r2) s = (s.exchangedStatus r1 r2).testQueue := exec_supervisor rfl supervisor

theorem State.exchangedStatus_spec (s : State) (r1 r2 : RegNo) : (s.exchangedStatus r1 r2).reg r1 = s.psw.status ∧
    (s.exchangedStatus r1 r2).psw.status = (if r1 = r2 then s.psw.status else s.reg r2) ∧
      (s.exchangedStatus r1 r2).psw.LOC = s.psw.LOC + 2 ∧ PswFrame [r1] s (s.exchangedStatus r1 r2) := by
  have loaded : (s.exchangedStatus r1 r2).psw.status = (s.setReg r1 s.psw.status).reg r2 :=
    Psw.status_withStatus s.psw _
  refine ⟨State.reg_setReg_same .., ?_, rfl, ?_⟩
  · rw [loaded, State.reg_setReg]
    simp only [eq_comm]
  · exact ⟨fun r other => State.reg_setReg_other s _ (by simpa using other), fun _ _ => rfl, rfl, rfl, rfl, rfl, rfl⟩

/-- Settles O30: LPSW and EPSR come to the test of the state with the loaded status, past the checks of LPSW. -/
theorem statusLoads : Obligations.StatusLoads := by
  intro s r1 r2 x2 a2 h
  refine ⟨fun supervisor => ⟨fun he => ?_, fun odd => ?_, fun nonzero => exec_lpsw_nonzero supervisor nonzero x2 a2, ?_⟩,
    fun protect => List.forall_mem_cons.2 ⟨completes_violation rfl h protect,
      List.forall_mem_singleton.2 (completes_violation rfl h protect)⟩⟩
  · refine loadsStatus_of_exec (t := s.loadedPsw s.psw.OB (s.ea x2 a2)) ?_ (by simpa using h) ?_ (Psw.full_ofFull _)
    · rw [exec_lpsw supervisor, requireEven_even he, h.loadPsw]
    · exact ⟨fun _ _ => rfl, fun _ _ => rfl, rfl, rfl, rfl, rfl, rfl⟩
  · rw [exec_lpsw supervisor, requireEven_odd (by simpa [EvenAddress] using odd)]
  · obtain ⟨saved, loaded, loc, frame⟩ := s.exchangedStatus_spec r1 r2
    exact loadsStatus_of_exec (exec_epsr supervisor r1 r2) ⟨h.alone, h.fitted⟩ frame ⟨saved, loaded, loc⟩

/-! ## Simulated interrupts -/

/-- Settles O31: in Supervisor Mode SINT is the service of the device that its operand names. -/
theorem simulatedInterrupts : Obligations.SimulatedInterrupts := by
  intro s x2 i2 h supervisor d sp
  have device : s.halfAt 0 (0x00d0 + ((lowByte (i2 + s.index x2)).setWidth 16 + (lowByte (i2 + s.index x2)).setWidth 16)) =
      sp := by
    rw [setWidth_lowByte, ← two_mul]
  have service : exec (.sint 0 x2 i2) s = s.serviceDevice (lowByte (i2 + s.index x2)) (s.psw.LOC + 4) :=
    exec_supervisor rfl supervisor
  obtain ⟨served, stopped⟩ := State.serviceDevice_spec h _ (s.psw.LOC + 4) sp device
  exact ⟨fun even => completes_of_exec service (served even), fun odd => service.trans (stopped odd)⟩

/-! ## Supervisor calls -/

/-- The stores of SVC: its operand value, and the Old PSW (rule R313). -/
def State.supervisorSaved (s : State) (operand : Half) : State :=
  (s.setHalf 0 0x0094 operand).setFull 0 0x0096 (s.psw.status ++ (s.psw.LOC + 4))

/-- The status and the location counter taken from two halfwords of bank 0, after the stores of SVC. -/
def State.entered (t : State) (status entry : Half) : State :=
  (t.setPsw (t.psw.withStatus (t.halfAt 0 status))).jump (t.halfAt 0 entry)

theorem State.entered_spec (t : State) (status entry : Half) :
    (∀ b a, (t.entered status entry).byteAt b a = t.byteAt b a) ∧
      (t.entered status entry).psw.status = t.halfAt 0 status ∧ (t.entered status entry).psw.LOC = t.halfAt 0 entry ∧
      SameRegsBut [] t (t.entered status entry) ∧ SameUnits t (t.entered status entry) :=
  ⟨fun _ _ => rfl, Psw.status_withStatus t.psw _, rfl, fun _ _ => rfl, rfl, rfl, rfl, rfl, rfl⟩

theorem Undisturbed.exec_svc (h : Undisturbed s) (r1 x2 : RegNo) (i2 : Half) :
    exec (.svc r1 x2 i2) s =
      .next ((s.supervisorSaved (i2 + s.index x2)).entered 0x009a (0x009c + (r1.setWidth 16 + r1.setWidth 16))) := by
  have h1 := (State.setHalf_undisturbed s 0 0x0094 (i2 + s.index x2)).2 h
  have h2 := (State.setFull_undisturbed _ 0 0x0096 (s.psw.status ++ (s.psw.LOC + 4))).2 h1
  change execSvc r1 x2 i2 s = _
  rw [execSvc, State.immediate, h.writeHalf, h1.writeFull, h2.readHalf, h2.readHalf, State.entered,
    State.supervisorSaved]

/-- SVC stores six bytes of bank 0. -/
theorem State.supervisorSaved_outside (s : State) (operand : Half) :
    SameMemoryOutside 0 0x0094 6 s (s.supervisorSaved operand) := by
  intro b a outside
  have first : ¬InSpan 0 0x0094 2 b a := fun ⟨bank, inside⟩ => outside ⟨bank, by omega⟩
  have second : ¬InSpan 0 0x0096 4 b a := fun ⟨bank, inside⟩ => outside ⟨bank, by bv_omega⟩
  rw [State.supervisorSaved, State.byteAt_setFull_outside _ _ second, State.byteAt_setHalf_outside _ _ first]

/-- What SVC stores. -/
theorem State.supervisorSaved_stored (s : State) (operand : Half) : (s.supervisorSaved operand).halfAt 0 0x0094 = operand ∧
    (s.supervisorSaved operand).fullAt 0 0x0096 = s.psw.status ++ (s.psw.LOC + 4) := by
  refine ⟨?_, State.fullAt_setFull_same ..⟩
  rw [supervisorSaved, (State.setFull_frame _ 0 0x0096 _).half (fun ⟨_, inside⟩ => by bv_omega)
    (fun ⟨_, inside⟩ => by bv_omega), State.halfAt_setHalf_same]

/-- The halfwords that SVC loads stand past the bytes it stores. -/
theorem State.supervisorSaved_clear (s : State) (operand : Half) {a : Half} (low : 0x9a ≤ a.toNat) (high : a.toNat < 0xffff) :
    (s.supervisorSaved operand).halfAt 0 a = s.halfAt 0 a :=
  (s.supervisorSaved_outside operand).half (fun ⟨_, inside⟩ => by bv_omega) (fun ⟨_, inside⟩ => by bv_omega)

/-- The stores of SVC write memory alone. -/
theorem State.supervisorSaved_frame (s : State) (operand : Half) :
    SameRegsBut [] s (s.supervisorSaved operand) ∧ SameUnits s (s.supervisorSaved operand) := by
  constructor
  · intro r _
    simp [State.supervisorSaved]
  · simp [State.supervisorSaved, SameUnits]

/-- Settles O32: SVC comes to two stores and two loads that they leave alone. -/
theorem supervisorCalls : Obligations.SupervisorCalls := by
  intro s r1 x2 i2 h
  have entry : (0x009c : Half) + (r1.setWidth 16 + r1.setWidth 16) = 0x009c + BitVec.ofNat 16 (2 * r1.toNat) := by
    bv_omega
  obtain ⟨bytes, status, loc, regs, units⟩ := (s.supervisorSaved (i2 + s.index x2)).entered_spec 0x009a
    (0x009c + (r1.setWidth 16 + r1.setWidth 16))
  obtain ⟨operand, old⟩ := s.supervisorSaved_stored (i2 + s.index x2)
  obtain ⟨savedRegs, savedUnits⟩ := s.supervisorSaved_frame (i2 + s.index x2)
  have halves : ∀ b a, _ = (s.supervisorSaved (i2 + s.index x2)).halfAt b a := fun b a =>
    State.halfAt_congr (bytes b a) (bytes b (a + 1))
  refine ⟨_, h.exec_svc r1 x2 i2, ?_, ?_, ?_, ?_, fun r other => ?_, fun b a outside => ?_, ?_⟩
  · exact (halves _ _).trans operand
  · exact (congrArg₂ (· ++ ·) (halves _ _) (halves _ _)).trans old
  · rw [status, s.supervisorSaved_clear _ (by decide) (by decide)]
  · rw [loc, s.supervisorSaved_clear _ (by bv_omega) (by bv_omega), entry]
  · rw [regs r other, savedRegs r other]
  · rw [bytes, s.supervisorSaved_outside _ b a outside]
  · obtain ⟨cpr, env, power, mode, install⟩ := units
    obtain ⟨cpr', env', power', mode', install'⟩ := savedUnits
    exact ⟨cpr.trans cpr', env.trans env', power.trans power', mode.trans mode', install.trans install'⟩

/-! ## Bank exchanges -/

/-- Settles O33: EPOR and EPPR write the PSW fields that they name and the former PSW into registers. -/
theorem bankExchanges : Obligations.BankExchanges := by
  intro s r1 r2
  constructor
  · exact ⟨_, rfl, State.reg_setReg_same .., rfl, rfl, rfl, rfl, rfl,
      fun r other => State.reg_setReg_other _ _ (by simpa using other), fun _ _ => rfl, rfl, rfl, rfl, rfl, rfl⟩
  · intro two
    have pair : r1.ule 14 = true := BitVec.ule_iff_toNat_le.2 two
    refine ⟨_, congrArg (require · _ _) pair, ?_, State.reg_setReg_same .., rfl, rfl, rfl, rfl, rfl, fun r other => ?_,
      fun _ _ => rfl, rfl, rfl, rfl, rfl, rfl⟩
    · exact (State.reg_setReg_other _ _ (regNo_facts r1).1).trans (State.reg_setReg_same ..)
    · obtain ⟨first, second⟩ := not_or.1 (by simpa using other)
      exact (State.reg_setReg_other _ _ second).trans (State.reg_setReg_other _ _ first)

/-! ## Status bits -/

/-- In Supervisor Mode, with fields of zero, SESB and RESB change bits 0:7 alone (rules R381, R382). -/
theorem completes_changeControl {bits : Byte} (h : exec i s = changeControl 0 0 bits s)
    (supervisor : s.psw.control.PM = false) : Completes i s fun t =>
      t.psw.control.bits = bits ∧ t.psw.IB = s.psw.IB ∧ t.psw.OB = s.psw.OB ∧ t.psw.cc = s.psw.cc ∧
        t.psw.LOC = s.psw.LOC + 4 ∧ PswFrame [] s t :=
  ⟨_, exec_supervisor h supervisor, Control.bits_ofBits bits, rfl, rfl, rfl, rfl, fun _ _ => rfl, fun _ _ => rfl, rfl, rfl,
    rfl, rfl, rfl⟩

theorem exec_changeControl_R1 {bits : Byte} (h : exec i s = changeControl r1 x2 bits s)
    (supervisor : s.psw.control.PM = false) (nonzero : r1 ≠ 0) : exec i s = .refused (.mustBeZero .R1) :=
  (exec_supervisor h supervisor).trans (require_fails nonzero _ _)

theorem exec_changeControl_X2 {bits : Byte} (h : exec i s = changeControl 0 x2 bits s)
    (supervisor : s.psw.control.PM = false) (nonzero : x2 ≠ 0) : exec i s = .refused (.mustBeZero .X2) :=
  (exec_supervisor h supervisor).trans ((require_holds rfl _ _).trans (require_fails nonzero _ _))

/-- Settles O34: SESB and RESB come to one change of bits 0:7, past the checks of their fields. -/
theorem statusBits : Obligations.StatusBits := by
  intro s r1 x2 i2
  refine ⟨fun supervisor => ⟨completes_changeControl rfl supervisor, completes_changeControl rfl supervisor,
    fun nonzero => ?_, fun nonzero => ?_⟩, fun h protect => ?_⟩
  · exact List.forall_mem_cons.2 ⟨exec_changeControl_R1 rfl supervisor nonzero,
      List.forall_mem_singleton.2 (exec_changeControl_R1 rfl supervisor nonzero)⟩
  · exact List.forall_mem_cons.2 ⟨exec_changeControl_X2 rfl supervisor nonzero,
      List.forall_mem_singleton.2 (exec_changeControl_X2 rfl supervisor nonzero)⟩
  · exact List.forall_mem_cons.2 ⟨completes_violation rfl h protect,
      List.forall_mem_singleton.2 (completes_violation rfl h protect)⟩

end Sys2Proof.Machine
end

section
/-! SUPPORT. The boundary between instructions (60_exceptions.md): which interrupt a step takes, the end of a run, and a
power failure with the restart after it. -/

namespace Sys2Proof.Machine

variable {s : State} {b : Boundary}

/-! ## What comes before an instruction -/

theorem Arrives.boundary (h : Arrives s b) : s.boundary = b := by
  obtain ⟨rest, h⟩ := h
  exact State.boundary_cons h

theorem Arrives.byteAt (h : Arrives s b) (dma : b.dma = []) (k : BankNo) (a : Half) :
    s.arrived.byteAt k a = s.byteAt k a := by
  simp only [State.byteAt, State.arrived_mem (h.boundary ▸ dma)]

theorem Arrives.halfAt (h : Arrives s b) (dma : b.dma = []) (k : BankNo) (a : Half) :
    s.arrived.halfAt k a = s.halfAt k a := State.halfAt_congr (h.byteAt dma _ _) (h.byteAt dma _ _)

theorem Arrives.fullAt (h : Arrives s b) (dma : b.dma = []) (k : BankNo) (a : Half) :
    s.arrived.fullAt k a = s.fullAt k a := congrArg₂ (· ++ ·) (h.halfAt dma _ _) (h.halfAt dma _ _)

/-- With one condition asserted and enabled the step takes it. -/
theorem Arrives.step_takes {c : Condition} (h : Arrives s b) (operational : s.power = .operational)
    (up : b.power ≠ .shutdown) (one : s.arrived.conditions b = [c]) : step s = s.arrived.take c :=
  step_outside (h.boundary ▸ State.outside_one (by simpa using operational) up one)

/-- With no condition the wait state goes on. -/
theorem Arrives.step_waits (h : Arrives s b) (operational : s.power = .operational) (up : b.power ≠ .shutdown)
    (none : s.arrived.conditions b = []) (waiting : s.psw.control.WT = true) : step s = .next s.arrived :=
  step_outside (by
    rw [h.boundary, State.outside_nothing (by simpa using operational) up none, State.arrived_psw, if_pos waiting])

/-- With no condition, outside the wait state, the step executes an instruction. -/
theorem Arrives.step_executes (h : Arrives s b) (operational : s.power = .operational) (up : b.power ≠ .shutdown)
    (none : s.arrived.conditions b = []) (running : s.psw.control.WT = false) : step s = s.arrived.fetch exec :=
  step_inside (by
    rw [h.boundary, State.outside_nothing (by simpa using operational) up none, State.arrived_psw, running]
    rfl)

/-- The conditions of the channel, with nothing else asserted (rules R416, R417). -/
theorem State.conditions_channel (attention : b.attention = false) (parity : b.parity = .none) (power : b.power = .none) :
    s.conditions b = conditionIf (b.termination && b.queueEntry && s.psw.control.CT) .channelTermination ++
      match b.overflow with
      | none => []
      | some p => [.queueOverflow p] := by
  simp only [State.conditions, attention, parity, power, conditionIf]
  rfl

/-! ## Channel interrupts -/

theorem State.takeTermination_spec (h : Undisturbed s) :
    ∃ t, s.take .channelTermination = .next t ∧ Exchanges s t 0x0082 0x0086 s.psw.LOC :=
  s.raise_spec h .channelTermination s.psw.LOC

/-- The steps of a Channel Termination Queue Overflow: the pointer, then the exchange (rule R417). -/
theorem State.takeOverflow_spec (h : Undisturbed s) (p : Half) : ∃ t, s.take (.queueOverflow p) = .next t ∧
    t.halfAt 0 0x008a = p ∧ t.fullAt 0 0x008c = s.psw.status ++ s.psw.LOC ∧ t.psw.full = s.fullAt 0 0x0090 ∧
      ExchangeFrame 0x008a 6 s t := by
  have stored := StoreFrame.setHalf s 0 0x008a p
  obtain ⟨t, raised, saved, loaded, frame⟩ :=
    ((s.setHalf 0 0x008a p).raise_spec ((State.setHalf_undisturbed ..).2 h) .queueOverflow s.psw.LOC)
  have steps : s.take (.queueOverflow p) = (s.setHalf 0 0x008a p).raise .queueOverflow s.psw.LOC := by
    simp only [State.take, h.writeHalf]
  refine ⟨t, steps.trans raised, ?_, saved, loaded.trans ?_, ?_, ?_, ?_⟩
  · rw [frame.memory.half (fun ⟨_, inside⟩ => by revert inside; decide) (fun ⟨_, inside⟩ => by revert inside; decide),
      State.halfAt_setHalf_same]
  · exact stored.memory.full (fun ⟨_, inside⟩ => by revert inside; decide) (fun ⟨_, inside⟩ => by revert inside; decide)
      (fun ⟨_, inside⟩ => by revert inside; decide) (fun ⟨_, inside⟩ => by revert inside; decide)
  · exact fun r other => (frame.regs r other).trans (stored.regs r other)
  · intro k a outside
    have first : ¬InSpan 0 0x008a 2 k a := fun ⟨bank, inside⟩ => outside ⟨bank, by omega⟩
    have second : ¬InSpan 0 0x008c 4 k a := fun ⟨bank, inside⟩ => outside ⟨bank, by bv_omega⟩
    exact (frame.memory k a second).trans (stored.memory k a first)
  · exact frame.units

/-- Settles O22: the channel asserts at most one condition, which the step takes; with none it waits or executes. -/
theorem channelInterrupts : Obligations.ChannelInterrupts := by
  intro s b h arrives dma attention parity power operational ct loc
  have up : b.power ≠ .shutdown := by simp [power]
  have h' := (State.arrived_undisturbed s).2 h
  have conditions := s.arrived.conditions_channel attention parity power
  rw [State.arrived_psw] at conditions
  refine ⟨fun none termination entry enabled => ?_, fun none missing => ?_, fun p overflow missing => ?_⟩
  · have one : s.arrived.conditions b = [.channelTermination] := by
      have enabled : s.psw.control.CT = true := enabled
      simp [conditions, none, termination, entry, enabled, conditionIf]
    rw [arrives.step_takes operational up one]
    have taken := State.takeTermination_spec h'
    rwa [State.arrived_psw] at taken
  · have nothing : s.arrived.conditions b = [] := by
      simpa [conditions, none, conditionIf, ← and_assoc] using missing
    refine ⟨arrives.step_waits operational up nothing, fun running even i rest decoded => ?_⟩
    rw [arrives.step_executes operational up nothing running]
    refine fetch_eq_exec (rest := rest) h' (by simpa using even) ?_
    simpa [State.fetchBytes, arrives.byteAt dma] using decoded
  · have one : s.arrived.conditions b = [.queueOverflow p] := by
      simpa [conditions, overflow, conditionIf, ← and_assoc] using missing
    rw [arrives.step_takes operational up one]
    simpa [arrives.fullAt dma] using State.takeOverflow_spec h' p

/-! ## Asynchronous interrupts -/

theorem State.takeExternal_spec (h : Undisturbed s) :
    ∃ t, s.take .external = .next t ∧ Exchanges s t 0x0040 0x0044 s.psw.LOC := s.raise_spec h .external s.psw.LOC

/-- The Immediate Interrupt of a device that answers with an even Service Pointer (rule R414). -/
theorem State.takeImmediate_spec (h : Undisturbed s) {d st : Byte} {more : List (Option (Byte × Byte))} {sp : Half}
    (answer : s.env.acks = some (d, st) :: more) (device : s.halfAt 0 (0x00d0 + 2 * d.setWidth 16) = sp)
    (even : EvenAddress sp) : ∃ t, s.take .immediate = .next t ∧ t.fullAt 0 sp = s.psw.status ++ s.psw.LOC ∧
      t.psw.status = s.halfAt 0 (sp + 4) ∧ t.psw.LOC = sp + 6 ∧ t.env = s.env.acknowledged ∧ SameRegsBut [] s t ∧
        SameMemoryOutside 0 sp 4 s t := by
  have pointer : s.afterAcknowledge.halfAt 0 (0x00d0 + (d.setWidth 16 + d.setWidth 16)) = sp := by
    rw [← two_mul]
    exact device
  obtain ⟨t, served, saved, status, loc, frame⟩ :=
    (State.serviceDevice_spec ((State.afterAcknowledge_undisturbed s).2 h) d s.psw.LOC sp pointer).1 even
  have immediate : s.take .immediate = s.afterAcknowledge.serviceDevice d s.psw.LOC := by
    simp only [State.take, State.takeImmediate, State.acknowledgeAnswer, answer, List.headD_cons]
  exact ⟨t, immediate.trans served, saved, status, loc, frame.units.2.1, frame.regs, frame.memory⟩

/-- The bit of the condition code that a malfunction sets (rule R410). -/
def Malfunction.bit : Malfunction → BitVec 4
  | .instructionRead => 2
  | .operandRead => 4
  | .powerFailure => 1

theorem Malfunction.bits_flag (k : Malfunction) (c : CC) : (k.flag c).bits = c.bits ||| k.bit := by
  obtain ⟨c, v, g, l⟩ := c
  cases k <;> revert c v g l <;> decide

/-- Adding to the condition code is adding to bits 12:15 of the PSW. -/
theorem Psw.full_orCC (p : Psw) (cc : CC) (bit : BitVec 4) (h : cc.bits = p.cc.bits ||| bit) :
    ({ p with cc } : Psw).full = p.full ||| (0#12 ++ bit ++ 0#16) := by
  simp only [Psw.full, Psw.status, h]
  rw [BitVec.or_append, BitVec.or_append, BitVec.or_zero, BitVec.or_zero]

/-- The Machine Malfunction exchange, with the flag of its cause (rule R410). -/
theorem State.takeMalfunction_spec (h : Undisturbed s) (k : Malfunction) : ∃ t, s.take (.malfunction k) = .next t ∧
    t.fullAt 0 0x0038 = s.psw.status ++ s.psw.LOC ∧
      t.psw.full = s.fullAt 0 0x003c ||| (0#12 ++ k.bit ++ 0#16) ∧ ExchangeFrame 0x0038 4 s t := by
  obtain ⟨saved, loaded, frame⟩ := s.exchanged_spec .machineMalfunction s.psw.LOC
  refine ⟨_, h.exchange .machineMalfunction s.psw.LOC _, saved, ?_, frame.regs, frame.memory, frame.units⟩
  exact (Psw.full_orCC _ _ _ (k.bits_flag _)).trans (congrArg (· ||| _) loaded)

/-- Settles O58: each signal asserts one condition, which the step takes. -/
theorem asynchronousInterrupts : Obligations.AsynchronousInterrupts := by
  intro s b h arrives dma termination overflow operational c loc
  have h' := (State.arrived_undisturbed s).2 h
  refine ⟨fun attention parity power ei as => ?_, fun attention parity power ei as d st more answer => ?_,
    fun attention mm flag cause => ?_⟩
  · have one : s.arrived.conditions b = [.external] := by
      have ei : s.psw.control.EI = true := ei
      have as : s.psw.control.AS = false := as
      simp [State.conditions, conditionIf, attention, parity, power, termination, overflow, ei, as]
    rw [arrives.step_takes operational (by simp [power]) one]
    have taken := State.takeExternal_spec h'
    rwa [State.arrived_psw] at taken
  · intro sp even
    have one : s.arrived.conditions b = [.immediate] := by
      have ei : s.psw.control.EI = true := ei
      have as : s.psw.control.AS = true := as
      simp [State.conditions, conditionIf, attention, parity, power, termination, overflow, ei, as]
    obtain ⟨t, taken, saved, status, counter, env, regs, memory⟩ :=
      State.takeImmediate_spec h' (by simpa using answer) (arrives.halfAt dma _ _) even
    rw [State.arrived_psw] at saved
    rw [arrives.halfAt dma] at status
    refine ⟨t, (arrives.step_takes operational (by simp [power]) one).trans taken, saved, status, counter, env,
      fun r other => (regs r other).trans (s.arrived_reg r), fun k a outside => ?_⟩
    rw [memory k a outside, arrives.byteAt dma]
  · have cases : ∃ k : Malfunction, s.arrived.conditions b = [.malfunction k] ∧ b.power ≠ .shutdown ∧
        flag = (0#12 ++ k.bit ++ 0#16) := by
      have mm : s.psw.control.MM = true := mm
      rcases cause with ⟨parity, power, rfl⟩ | ⟨parity, power, rfl⟩ | ⟨parity, power, rfl⟩
      · exact ⟨.instructionRead,
          by simp [State.conditions, conditionIf, attention, parity, power, termination, overflow, mm], by simp [power], rfl⟩
      · exact ⟨.operandRead,
          by simp [State.conditions, conditionIf, attention, parity, power, termination, overflow, mm], by simp [power], rfl⟩
      · exact ⟨.powerFailure,
          by simp [State.conditions, conditionIf, attention, parity, power, termination, overflow, mm], by simp [power], rfl⟩
    obtain ⟨k, one, up, rfl⟩ := cases
    rw [arrives.step_takes operational up one]
    have taken := State.takeMalfunction_spec h' k
    rwa [State.arrived_psw, arrives.fullAt dma] at taken

/-! ## The end of a run -/

theorem Ended.hasEnded (h : Ended s) : s.hasEnded = true := by
  obtain ⟨wt, ei, mm⟩ := h
  simp [State.hasEnded, wt, ei, mm]

/-- Nothing but a channel condition is enabled where a run has ended. -/
theorem Ended.conditions (h : Ended s) (termination : b.termination = false) (overflow : b.overflow = none) :
    s.conditions b = [] := by
  obtain ⟨-, ei, mm⟩ := h
  simp [State.conditions, conditionIf, termination, overflow, ei, mm]

/-- Settles O59: with no condition enabled the wait state goes on, and a run stops before its first step. -/
theorem endedRunsStay : Obligations.EndedRunsStay := by
  intro s ended operational
  have ended' : Ended s.arrived := by simpa [Ended] using ended
  refine ⟨fun empty => ?_, fun b arrives power termination overflow => ⟨?_, ended'⟩, fun n => ?_⟩
  · refine step_outside ?_
    rw [State.arrived_nil empty, State.boundary_nil empty,
      State.outside_nothing operational (by decide) s.conditions_quiet, if_pos ended.1]
  · refine arrives.step_waits operational ?_ (ended'.conditions termination overflow) ended.1
    rcases power with power | power <;> simp [power]
  · cases n <;> simp [run, ended.hasEnded]


/-! ## Power failure -/

/-- Execution stops. -/
def State.stopped (s : State) : State := { s with power := .standBy }

@[simp] theorem State.stopped_byteAt (s : State) (c : BankNo) (a : Half) : s.stopped.byteAt c a = s.byteAt c a := rfl
@[simp] theorem State.stopped_halfAt (s : State) (c : BankNo) (a : Half) : s.stopped.halfAt c a = s.halfAt c a := rfl
@[simp] theorem State.stopped_fullAt (s : State) (c : BankNo) (a : Half) : s.stopped.fullAt c a = s.fullAt c a := rfl

/-- The state that the power-down sequence leaves (rule R437). -/
def State.poweredDown (s : State) : State :=
  ((s.storedMultiple 0 16 0 (s.halfAt 0 0x0022)).setFull 0 0x0024 s.psw.full).stopped

/-- The state that a restart comes to before it resumes (rule R436). -/
def State.reloaded (s : State) : State :=
  ((s.loadedMultiple 0 16 0 (s.halfAt 0 0x0022)).loadedPsw 0 0x0024).powered

/-- The save area stands clear of the Register Save Pointer and of the PSW location. -/
def SaveAreaClear (p : Half) : Prop := ∀ k : Half, k.toNat < 32 → ¬InSpan 0 0x0022 6 0 (p + k)

/-- A byte of the save area stands outside the PSW location. -/
theorem SaveAreaClear.psw {p : Half} (h : SaveAreaClear p) {k : Half} (inside : k.toNat < 32) :
    ¬InSpan 0 0x0024 4 0 (p + k) := by
  rintro ⟨-, location⟩
  exact h k inside ⟨rfl, by bv_omega⟩

/-- A byte of the pointer stands outside the save area. -/
theorem SaveAreaClear.pointer {p : Half} (h : SaveAreaClear p) {a : Half} (here : (a - 0x0022).toNat < 6) :
    ¬InSpan 0 p 32 0 a := by
  rintro ⟨-, inside⟩
  exact h (a - p) inside ⟨rfl, by bv_omega⟩

theorem State.poweredDown_outside (s : State) (c : BankNo) (a : Half) (area : ¬InSpan 0 (s.halfAt 0 0x0022) 32 c a)
    (psw : ¬InSpan 0 0x0024 4 c a) : s.poweredDown.byteAt c a = s.byteAt c a := by
  rw [poweredDown, stopped_byteAt, byteAt_setFull_outside _ _ psw]
  exact State.storedMultiple_outside 0 16 s 0 (s.halfAt 0 0x0022) (by decide) c a area

/-- The Register Save Pointer is as it was. -/
theorem State.poweredDown_pointer (clear : SaveAreaClear (s.halfAt 0 0x0022)) :
    s.poweredDown.halfAt 0 0x0022 = s.halfAt 0 0x0022 :=
  State.halfAt_congr
    (s.poweredDown_outside 0 _ (clear.pointer (by decide)) (fun ⟨_, inside⟩ => by revert inside; decide))
    (s.poweredDown_outside 0 _ (clear.pointer (by decide)) (fun ⟨_, inside⟩ => by revert inside; decide))

/-- The save area holds the registers. -/
theorem State.poweredDown_saved (clear : SaveAreaClear (s.halfAt 0 0x0022)) (r : RegNo) :
    s.poweredDown.halfAt 0 (s.halfAt 0 0x0022 + BitVec.ofNat 16 (2 * (r.toNat - 0))) = s.reg r := by
  have first := clear.psw (k := BitVec.ofNat 16 (2 * (r.toNat - 0))) (by bv_omega)
  have second := clear.psw (k := BitVec.ofNat 16 (2 * (r.toNat - 0)) + 1) (by bv_omega)
  rw [← BitVec.add_assoc] at second
  rw [poweredDown, stopped_halfAt,
    State.halfAt_congr (State.byteAt_setFull_outside _ _ first) (State.byteAt_setFull_outside _ _ second)]
  exact State.storedMultiple_stored 0 16 s 0 (s.halfAt 0 0x0022) rfl r (Nat.zero_le _)

/-- The PSW location holds the PSW. -/
theorem State.poweredDown_psw (s : State) : s.poweredDown.fullAt 0 0x0024 = s.psw.full := by
  rw [poweredDown, stopped_fullAt, fullAt_setFull_same]

theorem State.powered_frame (s : State) : s.powered.env = s.env ∧ s.powered.install = s.install := ⟨rfl, rfl⟩

theorem State.reloaded_spec (s : State) :
    (∀ r, s.reloaded.reg r = s.halfAt 0 (s.halfAt 0 0x0022 + BitVec.ofNat 16 (2 * (r.toNat - 0)))) ∧
      s.reloaded.psw = Psw.ofFull (s.fullAt 0 0x0024) ∧ s.reloaded.mem = s.mem ∧ s.reloaded.runMode = s.runMode ∧
        s.reloaded.env = s.env ∧ s.reloaded.install = s.install := by
  obtain ⟨loaded, -, mem, -, -, env, -, mode, install⟩ := State.loadedMultiple_spec 0 16 s 0 (s.halfAt 0 0x0022) rfl
  unfold State.reloaded
  generalize s.loadedMultiple 0 16 0 (s.halfAt 0 0x0022) = t at *
  refine ⟨fun r => ?_, ?_, by simpa, by simpa, ?_, ?_⟩
  · simpa using loaded r (Nat.zero_le _)
  · simp only [State.powered_psw, State.loadedPsw_psw, State.fullAt, State.halfAt, State.byteAt, mem]
  · rw [t.loadedPsw 0 0x0024 |>.powered_frame.1, State.loadedPsw_env, env]
  · rw [t.loadedPsw 0 0x0024 |>.powered_frame.2, State.loadedPsw_install, install]

theorem State.poweredDown_units (s : State) : s.poweredDown.env = s.env ∧ s.poweredDown.install = s.install ∧
    s.poweredDown.runMode = s.runMode ∧ s.poweredDown.power = .standBy := by
  obtain ⟨-, -, ⟨-, env, -, mode, install⟩, -⟩ := State.storedMultiple_keeps 0 16 s 0 (s.halfAt 0 0x0022)
  unfold State.poweredDown
  generalize s.storedMultiple 0 16 0 (s.halfAt 0 0x0022) = t at *
  exact ⟨env, install, mode, rfl⟩

/-- A shutdown takes the power-down sequence, before any interrupt (log 48). -/
theorem Arrives.step_powerDown (arrives : Arrives s b) (operational : s.power = .operational) (down : b.power = .shutdown)
    (h : Undisturbed s.arrived) (even : EvenAddress (s.arrived.halfAt 0 0x0022)) : step s = .next s.arrived.poweredDown := by
  have outside : s.arrived.outside b = some s.arrived.powerDown := by
    simp [State.outside, operational, down]
  rw [step_outside (arrives.boundary ▸ outside), State.powerDown_spec h even]
  rfl

/-- In stand-by, power restored with memory valid takes the restart (rule R436). -/
theorem Arrives.step_restart (arrives : Arrives s b) (standBy : s.power = .standBy) (restored : b.power = .restored true)
    (h : Undisturbed s.arrived) (even : EvenAddress (s.arrived.halfAt 0 0x0022)) : step s = s.arrived.reloaded.resume := by
  have outside : s.arrived.outside b = some s.arrived.restart := by
    simp [State.outside, standBy, restored]
  rw [step_outside (arrives.boundary ▸ outside), State.restart_spec h even]
  rfl

/-- How a restart ends, by bit 2 of the restored PSW (rules R410, R436). -/
theorem State.resume_spec (h : Undisturbed s) (operational : s.power = .operational)
    (going : s.psw.control.MM = true ∨ s.runMode = true) : ∃ u, s.resume = .next u ∧ u.power = .operational ∧
      (∀ r, u.reg r = s.reg r) ∧ (s.psw.control.MM = false → u = s) ∧
      (s.psw.control.MM = true → Exchanges s u 0x0038 0x003c s.psw.LOC) := by
  cases mm : s.psw.control.MM
  · exact ⟨s, State.resume_run mm (going.resolve_left (by simp [mm])), operational, fun _ => rfl, fun _ => rfl, by simp⟩
  · have taken := s.exchanged_spec .machineMalfunction s.psw.LOC
    exact ⟨_, State.resume_malfunction h mm, taken.frame.units.2.2.1.trans operational,
      fun r => taken.frame.regs r (List.not_mem_nil), by simp, fun _ => taken⟩

/-- Settles O60: the save area and the PSW location keep what the power-down puts there until the restart reloads it. -/
theorem powerFailureIsSurvived : Obligations.PowerFailureIsSurvived := by
  intro s b b' rest h inputs down up dma dma' operational going even clear
  have arrives : Arrives s b := ⟨_, inputs⟩
  have pointer : s.arrived.halfAt 0 0x0022 = s.halfAt 0 0x0022 := arrives.halfAt dma 0 0x0022
  have clear' : SaveAreaClear (s.arrived.halfAt 0 0x0022) := pointer ▸ clear
  have inputs' : s.arrived.env.inputs = b' :: rest := by rw [State.arrived_cons inputs]
  have hdown := arrives.step_powerDown operational down ((State.arrived_undisturbed s).2 h) (pointer ▸ even)
  have outside := s.arrived.poweredDown_outside
  obtain ⟨env, install, mode, standBy⟩ := s.arrived.poweredDown_units
  have savedPointer := State.poweredDown_pointer clear'
  have savedRegs := State.poweredDown_saved clear'
  have savedPsw := s.arrived.poweredDown_psw
  generalize s.arrived.poweredDown = t at *
  have ht : Undisturbed t := ⟨by simpa [env] using h.alone, by simpa [install] using h.fitted⟩
  have arrives' : Arrives t b' := ⟨rest, env ▸ inputs'⟩
  have sameBytes := arrives'.byteAt dma'
  have sameHalves := arrives'.halfAt dma'
  have sameFulls := arrives'.fullAt dma'
  have hup := arrives'.step_restart standBy up ((State.arrived_undisturbed t).2 ht)
    (by rw [sameHalves, savedPointer, pointer]; exact even)
  obtain ⟨regs, psw, mem, mode', env', install'⟩ := t.arrived.reloaded_spec
  have operational' : t.arrived.reloaded.power = .operational := State.powered_power _
  rw [sameHalves, savedPointer] at regs
  rw [sameFulls, savedPsw, Psw.ofFull_full, State.arrived_psw] at psw
  generalize t.arrived.reloaded = v at *
  have bytes : ∀ c a, v.byteAt c a = t.byteAt c a := fun c a => by rw [← sameBytes]; simp only [State.byteAt, mem]
  have hv : Undisturbed v := ⟨by simpa [env'] using ht.alone, by simpa [install'] using ht.fitted⟩
  obtain ⟨u, resumed, power, keeps, same, exchanged⟩ := State.resume_spec hv operational' (by simpa [psw, mode', mode] using going)
  rw [psw] at same exchanged
  refine ⟨t, u, hdown, standBy, fun c a area location => ?_, hup.trans resumed, power, fun r => ?_, fun mm => ?_, fun mm => ?_⟩
  · rw [outside c a (pointer ▸ area) location, arrives.byteAt dma]
  · rw [keeps, regs, sameHalves, savedRegs, State.arrived_reg]
  · rw [same mm]
    exact ⟨psw, bytes⟩
  · obtain ⟨saved, loaded, frame⟩ := exchanged mm
    rw [psw] at saved
    refine ⟨saved, loaded.trans ?_, fun c a other => (frame.memory c a other).trans (bytes c a)⟩
    simp only [State.fullAt, State.halfAt, bytes]

end Sys2Proof.Machine
end

section
/-! SUPPORT. The input/output instructions of one transfer (48_input_output.md): the addressed device, its answer or the
time-out, and where each puts what is delivered. -/

namespace Sys2Proof.Machine

variable {i : Instr} {s t u : State} {r1 r2 x2 : RegNo} {a2 a len : Half} {b : BankNo} {d : Byte} {rs : List RegNo} {n : Nat}

/-! ## Calls of the oracle within a frame -/

theorem DeviceFrame.called (f : DeviceFrame rs b a n s u) (c : DevCall) : DeviceFrame rs b a n s (u.called c) :=
  f.flags rfl rfl rfl rfl rfl ⟨rfl, rfl, rfl, rfl, rfl, rfl⟩

theorem DeviceFrame.afterStatus (f : DeviceFrame rs b a n s u) (d : Byte) : DeviceFrame rs b a n s (u.afterStatus d) :=
  f.flags rfl rfl rfl rfl rfl ⟨rfl, rfl, rfl, rfl, rfl, rfl⟩

theorem DeviceFrame.afterCommand (f : DeviceFrame rs b a n s u) (d c : Byte) :
    DeviceFrame rs b a n s (u.afterCommand d c) := f.flags rfl rfl rfl rfl rfl ⟨rfl, rfl, rfl, rfl, rfl, rfl⟩

theorem DeviceFrame.afterRead (f : DeviceFrame rs b a n s u) (d : Byte) : DeviceFrame rs b a n s (u.afterRead d) :=
  f.flags rfl rfl rfl rfl rfl ⟨rfl, rfl, rfl, rfl, rfl, rfl⟩

theorem DeviceFrame.afterReadHalf (f : DeviceFrame rs b a n s u) (d : Byte) :
    DeviceFrame rs b a n s (u.afterReadHalf d) := f.flags rfl rfl rfl rfl rfl ⟨rfl, rfl, rfl, rfl, rfl, rfl⟩

theorem DeviceFrame.setCC (f : DeviceFrame rs b a n s u) (c : CC) : DeviceFrame rs b a n s (u.setCC c) :=
  f.flags rfl rfl rfl rfl rfl ⟨rfl, rfl, rfl, rfl, rfl, rfl⟩

theorem DeviceFrame.drew (f : DeviceFrame rs b a n s u) (k : Nat) : DeviceFrame rs b a n s (u.drew k) :=
  f.flags rfl rfl rfl rfl rfl ⟨rfl, rfl, rfl, rfl, rfl, rfl⟩

theorem DeviceFrame.setDataCC (f : DeviceFrame rs b a n s u) (v : Bool) : DeviceFrame rs b a n s (u.setDataCC v) :=
  (f.setCC _).drew 3

/-- The environment after `Dev.read(d)`. -/
def Env.reading (e : Env) (d : Byte) : Env := { e with reads := e.reads.tail, calls := .read d :: e.calls }

/-- The environment after `Dev.read_h(d)`. -/
def Env.readingHalf (e : Env) (d : Byte) : Env :=
  { e with readHalves := e.readHalves.tail, calls := .readHalf d :: e.calls }

theorem State.afterRead_env (s : State) (d : Byte) : (s.afterRead d).env = s.env.reading d := rfl

theorem State.afterReadHalf_env (s : State) (d : Byte) : (s.afterReadHalf d).env = s.env.readingHalf d := rfl

theorem Env.reading_nil {e : Env} (h : e.reads = []) (d : Byte) : e.reading d = { e with calls := .read d :: e.calls } := by
  obtain ⟨⟩ := e
  simp only at h
  simp [Env.reading, h]

theorem Env.readingHalf_nil {e : Env} (h : e.readHalves = []) (d : Byte) :
    e.readingHalf d = { e with calls := .readHalf d :: e.calls } := by
  obtain ⟨⟩ := e
  simp only at h
  simp [Env.readingHalf, h]

theorem Env.reading_cons {e : Env} {v : Byte} {more : List Byte} (h : e.reads = v :: more) (d : Byte) :
    e.reading d = { e with reads := more, calls := .read d :: e.calls } := by
  simp [Env.reading, h]

theorem Env.readingHalf_cons {e : Env} {v : Half} {more : List Half} (h : e.readHalves = v :: more) (d : Byte) :
    e.readingHalf d = { e with readHalves := more, calls := .readHalf d :: e.calls } := by
  simp [Env.readingHalf, h]

theorem State.readAnswer_cons {v : Byte} {more : List Byte} (h : s.env.reads = v :: more) : s.readAnswer = v := by
  simp [State.readAnswer, h]

theorem State.readHalfAnswer_cons {v : Half} {more : List Half} (h : s.env.readHalves = v :: more) :
    s.readHalfAnswer = v := by
  simp [State.readHalfAnswer, h]

/-! ## Addressing -/

/-- A privileged instruction with the device number `d` in R1 goes on with it (rule R331). -/
theorem exec_addressed {k : Byte → Outcome} (h : exec i s = s.privileged (s.withDevice r1 k))
    (supervisor : s.psw.control.PM = false) (number : s.reg r1 = d.setWidth 16) : exec i s = k d :=
  (exec_supervisor h supervisor).trans (State.withDevice_number number k)

/-- One that addresses the device at once. -/
theorem exec_selected {late : State → Outcome} {sync : Byte → State → Outcome}
    (h : exec i s = s.privileged (s.withDevice r1 fun d => s.selected d late (sync d)))
    (supervisor : s.psw.control.PM = false) (number : s.reg r1 = d.setWidth 16) :
    exec i s = s.selected d late (sync d) := exec_addressed h supervisor number

section

variable {late sync : State → Outcome}

theorem exec_sync (h : exec i s = s.selected d late sync) (answers : s.env.selects.headD false = true) :
    exec i s = sync (s.afterSelect d) := h.trans (State.selected_sync answers d late sync)

theorem exec_late (h : exec i s = s.selected d late sync) (silent : s.env.selects.headD false = false) :
    exec i s = late (s.afterSelect d) := h.trans (State.selected_late silent d late sync)

/-- A time-out of an instruction that delivers nothing. -/
theorem timesOut_plain (h : exec i s = s.selected d (timedOut len) sync) (silent : s.env.selects.headD false = false) :
    TimesOut i s rs b a n len d := timesOut_of (exec_late h silent) rfl rfl (.afterSelect ..)

/-- A time-out of an instruction that delivers to a register. -/
theorem timesOut_register (h : exec i s = s.selected d (timedOutRegister r2 len) sync)
    (silent : s.env.selects.headD false = false) : TimesOut i s [r2] b a n len d :=
  timesOut_of (u := (s.afterSelect d).lateRegister r2) (exec_late h silent) rfl rfl
    (((DeviceFrame.afterSelect ..).setReg _ (List.mem_singleton_self r2)).drew 1)

/-- A time-out of an instruction that delivers a byte to memory. -/
theorem timesOut_byte (undisturbed : Undisturbed s) (h : exec i s = s.selected d (timedOutByte b a len) sync)
    (silent : s.env.selects.headD false = false) : TimesOut i s [] b a 1 len d := by
  have undisturbed' := (State.afterSelect_undisturbed s d).2 undisturbed
  refine timesOut_of ((exec_late h silent).trans (undisturbed'.writeByte ..)) rfl rfl
    (((DeviceFrame.afterSelect ..).setByte _ ⟨rfl, ?_⟩).drew 1)
  simp

/-- A time-out of an instruction that delivers a halfword to memory. -/
theorem timesOut_half (undisturbed : Undisturbed s) (h : exec i s = s.selected d (timedOutHalf b a len) sync)
    (silent : s.env.selects.headD false = false) : TimesOut i s [] b a 2 len d :=
  timesOut_of ((exec_late h silent).trans (((State.afterSelect_undisturbed s d).2 undisturbed).writeHalf ..)) rfl rfl
    (((DeviceFrame.afterSelect ..).setHalf _).drew 1)

end

/-! ## Status -/

theorem bits_setStatusCC (s : State) (st : Byte) (len : Half) :
    ((s.setStatusCC st).advance len).psw.cc.bits = st.extractLsb' 0 4 := CC.bits_ofBits _

/-- Settles O36: SSR and SS address the device and deliver its status, or time out. -/
theorem senseStatus : Obligations.SenseStatus := by
  intro s r1 r2 x2 a2 d supervisor number a e e' st
  have here : InSpan s.psw.OB a 1 s.psw.OB a := ⟨rfl, by simp⟩
  have ssr : exec (.ssr r1 r2) s = s.selected d (timedOutRegister r2 2) _ := exec_selected rfl supervisor number
  have ss : exec (.ss r1 x2 a2) s = s.selected d (timedOutByte s.psw.OB a 4) _ := exec_selected rfl supervisor number
  refine ⟨fun answers => ⟨?_, fun h => ?_⟩, fun silent =>
    ⟨timesOut_register ssr silent, fun h => timesOut_byte h ss silent⟩⟩
  · refine deviceCompletes_of (exec_sync ssr answers) rfl rfl
      ((((DeviceFrame.afterSelect ..).afterStatus d).setReg _ (List.mem_singleton_self r2)).setCC _) ⟨?_, ?_⟩
    · exact State.reg_setReg_same ..
    · exact bits_setStatusCC ..
  · have ready : Undisturbed ((s.afterSelect d).afterStatus d) := by simpa using h
    refine deviceCompletes_of ((exec_sync ss answers).trans (ready.writeByte ..)) rfl rfl
      ((((DeviceFrame.afterSelect ..).afterStatus d).setByte _ here).setCC _) ⟨?_, ?_⟩
    · exact State.byteAt_setByte_same ..
    · exact bits_setStatusCC ..

/-! ## Outputs -/

/-- An output to a device that answers, whole. -/
theorem deviceCompletes_output {e : Env} {v : Bool} (h : exec i s = .next ((u.setDataCC v).advance len)) (env : u.env = e)
    (loc : u.psw.LOC = s.psw.LOC) (frame : DeviceFrame rs b a n s u) :
    DeviceCompletes i s rs b a n len e fun t => t.psw.cc.V = v :=
  deviceCompletes_of h env loc (frame.setDataCC v) rfl

/-- Settles O37: the outputs address the device and hand it a byte or a halfword, or time out. -/
theorem deviceOutputs : Obligations.DeviceOutputs := by
  intro s r1 r2 x2 a2 d supervisor number a e low sent v more
  have ocr : exec (.ocr r1 r2) s = s.selected d (timedOut 2) _ :=
    exec_selected rfl supervisor number
  have wdr : exec (.wdr r1 r2) s = s.selected d (timedOut 2) _ :=
    exec_selected rfl supervisor number
  have whr : exec (.whr r1 r2) s = s.selected d (timedOut 2) _ :=
    exec_selected rfl supervisor number
  have oc (h : Undisturbed s) : exec (.oc r1 x2 a2) s =
      s.selected d (timedOut 4) (outputCommand d (s.byteAt s.psw.OB a) 4) :=
    (exec_addressed rfl supervisor number).trans (h.byteOperand ..)
  have wd (h : Undisturbed s) : exec (.wd r1 x2 a2) s =
      s.selected d (timedOut 4) (writeData d (s.byteAt s.psw.OB a) 4) :=
    (exec_addressed rfl supervisor number).trans (h.byteOperand ..)
  have wh (h : Undisturbed s) (even : EvenAddress a) : exec (.wh r1 x2 a2) s =
      s.selected d (timedOut 4) (writeDataHalf d (s.halfAt s.psw.OB a) 4) := by
    refine (exec_supervisor rfl supervisor).trans ?_
    rw [requireEven_even even, State.withDevice_number number, h.readHalf]
  rw [lowByte_eq_setWidth] at ocr wdr
  have sends (c : DevCall) : DeviceFrame [] 0 0 0 s ((s.afterSelect d).called c) := (DeviceFrame.afterSelect ..).called c
  have commands (c : Byte) : DeviceFrame [] 0 0 0 s ((s.afterSelect d).afterCommand d c) :=
    (DeviceFrame.afterSelect ..).afterCommand d c
  refine ⟨fun answers => ⟨?_, fun h => ?_, ?_, ?_, fun h => ⟨?_, fun even => ?_⟩⟩, fun silent => ⟨?_, fun h => ⟨?_, fun even => ?_⟩⟩⟩
  · exact deviceCompletes_output (exec_sync ocr answers) rfl rfl (commands _)
  · exact deviceCompletes_output (exec_sync (oc h) answers) rfl rfl (commands _)
  · exact deviceCompletes_output (exec_sync wdr answers) rfl rfl (sends _)
  · exact deviceCompletes_output (exec_sync whr answers) rfl rfl (sends _)
  · exact deviceCompletes_output (exec_sync (wd h) answers) rfl rfl (sends _)
  · exact deviceCompletes_output (exec_sync (wh h even) answers) rfl rfl (sends _)
  · exact List.forall_mem_cons.2 ⟨timesOut_plain ocr silent, List.forall_mem_cons.2
      ⟨timesOut_plain wdr silent, List.forall_mem_singleton.2 (timesOut_plain whr silent)⟩⟩
  · exact List.forall_mem_cons.2 ⟨timesOut_plain (oc h) silent, List.forall_mem_singleton.2 (timesOut_plain (wd h) silent)⟩
  · exact timesOut_plain (wh h even) silent

/-! ## Inputs -/

/-- A byte or halfword delivered to a register. -/
theorem deviceCompletes_register {e : Env} {v : Half} (h : exec i s = .next (((u.setReg r2 v).setDataCC false).advance len))
    (env : u.env = e) (loc : u.psw.LOC = s.psw.LOC) (frame : DeviceFrame [r2] b a n s u) :
    DeviceCompletes i s [r2] b a n len e fun t => t.reg r2 = v ∧ t.psw.cc.V = false :=
  deviceCompletes_of h env loc ((frame.setReg v (List.mem_singleton_self r2)).setDataCC false)
    ⟨State.reg_setReg_same .., rfl⟩

/-- A byte delivered to memory. -/
theorem deviceCompletes_byte {e : Env} {v : Byte} (h : exec i s = .next (((u.setByte b a v).setDataCC false).advance len))
    (env : u.env = e) (loc : u.psw.LOC = s.psw.LOC) (frame : DeviceFrame [] b a 1 s u) :
    DeviceCompletes i s [] b a 1 len e fun t => t.byteAt b a = v ∧ t.psw.cc.V = false :=
  deviceCompletes_of h env loc ((frame.setByte v ⟨rfl, by simp⟩).setDataCC false) ⟨State.byteAt_setByte_same .., rfl⟩

/-- A halfword delivered to memory. -/
theorem deviceCompletes_half {e : Env} {v : Half} (h : exec i s = .next (((u.setHalf b a v).setDataCC false).advance len))
    (env : u.env = e) (loc : u.psw.LOC = s.psw.LOC) (frame : DeviceFrame [] b a 2 s u) :
    DeviceCompletes i s [] b a 2 len e fun t => t.halfAt b a = v ∧ t.psw.cc.V = false :=
  deviceCompletes_of h env loc ((frame.setHalf v).setDataCC false) ⟨State.halfAt_setHalf_same .., rfl⟩

theorem DeviceCompletes.imp {e : Env} {p q : State → Prop} (h : DeviceCompletes i s rs b a n len e p)
    (weaker : ∀ t, p t → q t) : DeviceCompletes i s rs b a n len e q := by
  obtain ⟨t, steps, hp, rest⟩ := h
  exact ⟨t, steps, weaker t hp, rest⟩

theorem setWidth_byte_high (v : Byte) : v.setWidth 16 &&& (0xff00 : Half) = 0 := by
  have below (k : Nat) (low : k < 8) : (0xff00 : Half).getLsbD k = false := by revert k; decide
  apply BitVec.eq_of_getLsbD_eq
  intro k hk
  rw [BitVec.getLsbD_and, BitVec.getLsbD_setWidth]
  change _ = (0#16).getLsbD k
  rw [BitVec.getLsbD_zero]
  by_cases low : k < 8
  · rw [below k low, Bool.and_false]
  · rw [BitVec.getLsbD_of_ge v k (by omega), Bool.and_false, Bool.false_and]

/-- Settles O38: the inputs address the device and put what it delivers into R2 or memory, or time out. -/
theorem deviceInputs : Obligations.DeviceInputs := by
  intro s r1 r2 x2 a2 d supervisor number a e
  have rdr : exec (.rdr r1 r2) s = s.selected d (timedOutRegister r2 2) _ := exec_selected rfl supervisor number
  have rd : exec (.rd r1 x2 a2) s = s.selected d (timedOutByte s.psw.OB a 4) _ := exec_selected rfl supervisor number
  have rhr : exec (.rhr r1 r2) s = s.selected d (timedOutRegister r2 2) _ := exec_selected rfl supervisor number
  have rh (even : EvenAddress a) : exec (.rh r1 x2 a2) s = s.selected d (timedOutHalf s.psw.OB a 4) _ :=
    (exec_supervisor rfl supervisor).trans ((requireEven_even even _).trans (State.withDevice_number number _))
  refine ⟨fun answers => ?_, fun silent => ⟨timesOut_register rdr silent, timesOut_register rhr silent,
    fun h => ⟨timesOut_byte h rd silent, fun even => timesOut_half h (rh even) silent⟩⟩⟩
  have byteToReg := deviceCompletes_register (b := 0) (a := 0) (n := 0) (exec_sync rdr answers) rfl rfl
    ((DeviceFrame.afterSelect ..).afterRead d)
  have halfToReg := deviceCompletes_register (b := 0) (a := 0) (n := 0) (exec_sync rhr answers) rfl rfl
    ((DeviceFrame.afterSelect ..).afterReadHalf d)
  have byteToMem (h : Undisturbed s) := deviceCompletes_byte ((exec_sync rd answers).trans
    (Undisturbed.writeByte (s := (s.afterSelect d).afterRead d) (by simpa using h) ..)) rfl rfl
    ((DeviceFrame.afterSelect ..).afterRead d)
  have halfToMem (h : Undisturbed s) (even : EvenAddress a) := deviceCompletes_half ((exec_sync (rh even) answers).trans
    (Undisturbed.writeHalf (s := (s.afterSelect d).afterReadHalf d) (by simpa using h) ..)) rfl rfl
    ((DeviceFrame.afterSelect ..).afterReadHalf d)
  rw [State.afterRead_env] at byteToReg byteToMem
  rw [State.afterReadHalf_env] at halfToReg halfToMem
  refine ⟨fun empty => ?_, fun empty => ?_, fun v more delivered => ?_, fun v more delivered => ?_⟩
  · rw [Env.reading_nil (e := (s.afterSelect d).env) empty] at byteToReg byteToMem
    exact ⟨byteToReg.imp fun t ht => ⟨by rw [ht.1, setWidth_byte_high], ht.2⟩,
      fun h => (byteToMem h).imp fun t => And.right⟩
  · rw [Env.readingHalf_nil (e := (s.afterSelect d).env) empty] at halfToReg halfToMem
    exact ⟨halfToReg.imp fun t => And.right, fun h even => (halfToMem h even).imp fun t => And.right⟩
  · rw [Env.reading_cons (e := (s.afterSelect d).env) delivered,
      State.readAnswer_cons (s := s.afterSelect d) delivered] at byteToReg byteToMem
    exact ⟨byteToReg, byteToMem⟩
  · rw [Env.readingHalf_cons (e := (s.afterSelect d).env) delivered,
      State.readHalfAnswer_cons (s := s.afterSelect d) delivered] at halfToReg halfToMem
    exact ⟨halfToReg, halfToMem⟩

/-! ## Acknowledges -/

/-- Settles O39: AIR and AI take the head of the queue of acknowledges, R1 written before R2 or memory. -/
theorem acknowledges : Obligations.Acknowledges := by
  intro s r1 r2 x2 a2 supervisor a e
  have here : InSpan s.psw.OB a 1 s.psw.OB a := ⟨rfl, by simp⟩
  have frame {rs : List RegNo} {b : BankNo} {a : Half} {n : Nat} (v : Half) (h : r1 ∈ rs) :
      DeviceFrame rs b a n s (s.afterAcknowledge.setReg r1 v) := (DeviceFrame.afterAcknowledge ..).setReg v h
  have air : exec (.air r1 r2) s = _ := exec_supervisor rfl supervisor
  have ai : exec (.ai r1 x2 a2) s = _ := exec_supervisor rfl supervisor
  refine ⟨fun d st more answer => ?_, fun silent => ?_⟩
  · have head : s.acknowledgeAnswer = some (d, st) := by simp [State.acknowledgeAnswer, answer]
    rw [head] at air ai
    refine ⟨deviceCompletes_of air rfl rfl (((frame _ (by simp)).setReg _ (by simp)).setCC _) ⟨?_, fun other => ?_, ?_⟩,
      fun h => ?_⟩
    · exact State.reg_setReg_same ..
    · exact (State.reg_setReg_other _ _ other).trans (State.reg_setReg_same ..)
    · exact bits_setStatusCC ..
    · have ready : Undisturbed (s.afterAcknowledge.setReg r1 (d.setWidth 16)) := by simpa using h
      refine deviceCompletes_of (ai.trans (ready.writeByte ..)) rfl rfl
        (((frame _ (by simp)).setByte _ here).setCC _) ⟨?_, ?_, ?_⟩
      · exact State.reg_setReg_same ..
      · exact State.byteAt_setByte_same ..
      · exact bits_setStatusCC ..
  · have head : s.acknowledgeAnswer = none := silent
    rw [head] at air ai
    refine ⟨deviceCompletes_of air rfl rfl (((((frame _ (by simp)).drew 1).setReg _ (by simp)).drew 1).setDataCC true) rfl,
      fun h => ?_⟩
    have ready : Undisturbed (s.afterAcknowledge.lateRegister r1) := by simpa [State.lateRegister] using h
    exact deviceCompletes_of (ai.trans (ready.writeByte ..)) rfl rfl
      ((((((frame _ (by simp)).drew 1).setByte _ here).drew 1).setDataCC true)) rfl

end Sys2Proof.Machine
end

section
/-! SUPPORT. The block transfers and Autoload (48_input_output.md): the loops' calls, what ends them, and the bytes they
move. -/

namespace Sys2Proof.Machine

variable {i : Instr} {s t : State} {start last len : Half} {d : Byte}

/-! ## Addressing a block -/

/-- With the limits in the wrong order nothing is transferred (rule R348). -/
theorem deviceCompletes_emptyBlock {loop : BankNo → Byte → Half → Nat → Half → State → Outcome}
    (h : exec i s = s.block loop d start last len) (wrong : last.toNat < start.toNat) :
    DeviceCompletes i s [] 0 0 0 len s.env fun t => t.psw.cc.bits = 0 := by
  have wrong' : last.ult start = true := BitVec.ult_iff_toNat_lt.2 wrong
  refine deviceCompletes_of (u := s.setCC (CC.ofBits 0)) (h.trans ?_) rfl rfl ((DeviceFrame.refl ..).setCC _)
    (CC.bits_ofBits 0)
  rw [State.block, if_pos wrong']

/-- With the limits in order the device is addressed. -/
theorem exec_block {loop : BankNo → Byte → Half → Nat → Half → State → Outcome}
    (h : exec i s = s.block loop d start last len) (order : start.toNat ≤ last.toNat) :
    exec i s = s.selected d (timedOut len) (loop s.psw.OB d len (last.toNat + 1 - start.toNat) start) := by
  have order' : last.ult start ≠ true := fun wrong => absurd (BitVec.ult_iff_toNat_lt.1 wrong) (by omega)
  rw [h, State.block, if_neg order', blockCount]

/-! ## Block reads -/

/-- Settles O40: RBR and RB come to the loop of Read Block, whose law says where it ends. -/
theorem blockReads : Obligations.BlockReads := by
  intro s r1 r2 x2 a2 d h supervisor number claim
  have claimed (i : Instr) (start last len : Half) (e : exec i s = s.block State.readBlock d start last len) :
      claim i start last len := by
    refine ⟨deviceCompletes_emptyBlock e, fun order silent => timesOut_plain (exec_block e order) silent,
      fun order answers => ?_⟩
    have ready : Undisturbed (s.afterSelect d) := (State.afterSelect_undisturbed s d).2 h
    obtain ⟨k, within, clear, ends, bytes, calls, loc, frame⟩ := State.blockRead_spec s.psw.OB d
      (last.toNat + 1 - start.toNat) start (s.afterSelect d) (by omega)
    exact ⟨k, within, _, (exec_sync (exec_block e order) answers).trans (ready.readBlock ..), ⟨clear, ends⟩, bytes, calls,
      congrArg (· + len) loc, ((DeviceFrame.afterSelect ..).trans frame).advance len⟩
  refine ⟨fun two => ?_, fun even => ?_⟩
  · have pair : r2.ule 14 = true := BitVec.ule_iff_toNat_le.2 two
    refine claimed _ _ _ _ ((exec_supervisor rfl supervisor).trans ?_)
    rw [pair, require_true, State.withDevice_number number]
  · refine claimed _ _ _ _ ((exec_supervisor rfl supervisor).trans ?_)
    rw [h.withLimits, requireEven_even even, State.withDevice_number number]

/-! ## Block writes -/

theorem writeBlockCalls_first (s : State) (d : Byte) (a : Half) (k : Nat) :
    writeBlockCalls s d (a + 1) k ++ [.write d (s.byteAt s.psw.OB a), .status d] = writeBlockCalls s d a (k + 1) := by
  induction k with
  | zero => simp [writeBlockCalls]
  | succ k ih =>
    have next : a + 1 + BitVec.ofNat 16 k = a + BitVec.ofNat 16 (k + 1) := by bv_omega
    rw [writeBlockCalls, List.cons_append, List.cons_append, ih, next]
    rfl

theorem statuses_getD_zero (s : State) : s.env.statuses.getD 0 0x01 = s.statusAnswer := by
  unfold State.statusAnswer
  cases s.env.statuses <;> rfl

theorem statuses_getD_tail (s : State) (j : Nat) : s.env.statuses.tail.getD j 0x01 = s.env.statuses.getD (j + 1) 0x01 := by
  cases s.env.statuses <;> simp

/-- The loop of Write Block (rule R348), on bytes that are those of `s`: it stops after `k` bytes. -/
theorem State.blockWritten_spec (s : State) (d : Byte) (n : Nat) (a : Half) (t : State)
    (same : ∀ a, t.byteAt s.psw.OB a = s.byteAt s.psw.OB a) :
    ∃ k ≤ n, (∀ j < k, statusNibble (t.env.statuses.getD j 0x01) = 0) ∧
      ((k = n ∧ (State.blockWritten s.psw.OB d n a t).psw.cc.bits = 0) ∨
        (k < n ∧ (State.blockWritten s.psw.OB d n a t).psw.cc.bits = statusNibble (t.env.statuses.getD k 0x01) ∧
          (State.blockWritten s.psw.OB d n a t).psw.cc.bits ≠ 0)) ∧
      (State.blockWritten s.psw.OB d n a t).env.calls =
        (if k < n then [.status d] else []) ++ writeBlockCalls s d a k ++ t.env.calls := by
  induction n generalizing a t with
  | zero => exact ⟨0, le_refl _, by simp, .inl ⟨rfl, CC.bits_ofBits 0⟩, by simp [State.blockWritten, writeBlockCalls]⟩
  | succ n ih =>
    simp only [State.blockWritten]
    by_cases clear : statusNibble t.statusAnswer = 0
    · rw [if_neg (not_not.2 clear)]
      obtain ⟨k, within, before, ends, calls⟩ := ih (a + 1)
        ((t.afterStatus d).called (.write d ((t.afterStatus d).byteAt s.psw.OB a))) same
      have tail (j : Nat) : ((t.afterStatus d).called (.write d ((t.afterStatus d).byteAt s.psw.OB a))).env.statuses.getD j
          0x01 = t.env.statuses.getD (j + 1) 0x01 := statuses_getD_tail t j
      simp only [tail] at before ends
      refine ⟨k + 1, by omega, fun j hj => ?_, ?_, ?_⟩
      · cases j with
        | zero => rwa [statuses_getD_zero]
        | succ j => exact before j (by omega)
      · exact ends.imp (fun ⟨all, zero⟩ => ⟨by omega, zero⟩) (fun ⟨fewer, nibble⟩ => ⟨by omega, nibble⟩)
      · have first : (t.afterStatus d).byteAt s.psw.OB a = s.byteAt s.psw.OB a := same a
        rw [calls, ← writeBlockCalls_first, first]
        simp only [Nat.add_lt_add_iff_right, List.append_assoc]
        rfl
    · rw [if_pos clear]
      have nibble : ((t.afterStatus d).setStatusCC t.statusAnswer).psw.cc.bits = statusNibble t.statusAnswer :=
        CC.bits_ofBits _
      exact ⟨0, by omega, by simp, .inr ⟨by omega, by rw [nibble, statuses_getD_zero], by rwa [nibble]⟩, rfl⟩

/-- Settles O41: WBR and WB come to the loop of Write Block, whose law says where it ends. -/
theorem blockWrites : Obligations.BlockWrites := by
  intro s r1 r2 x2 a2 d h supervisor number claim
  have claimed (i : Instr) (start last len : Half) (e : exec i s = s.block State.writeBlock d start last len) :
      claim i start last len := by
    refine ⟨deviceCompletes_emptyBlock e, fun order silent => timesOut_plain (exec_block e order) silent,
      fun order answers => ?_⟩
    have ready : Undisturbed (s.afterSelect d) := (State.afterSelect_undisturbed s d).2 h
    obtain ⟨k, within, clear, ends, calls⟩ := s.blockWritten_spec d (last.toNat + 1 - start.toNat) start (s.afterSelect d)
      fun _ => rfl
    obtain ⟨loc, frame⟩ := State.blockWritten_frame s.psw.OB d (last.toNat + 1 - start.toNat) start (s.afterSelect d)
    exact ⟨k, within, _, (exec_sync (exec_block e order) answers).trans (ready.writeBlock ..), ⟨clear, ends⟩, calls,
      congrArg (· + len) loc, ((DeviceFrame.afterSelect ..).trans frame).advance len⟩
  refine ⟨fun two => ?_, fun even => ?_⟩
  · have pair : r2.ule 14 = true := BitVec.ule_iff_toNat_le.2 two
    refine claimed _ _ _ _ ((exec_supervisor rfl supervisor).trans ?_)
    rw [pair, require_true, State.withDevice_number number]
  · refine claimed _ _ _ _ ((exec_supervisor rfl supervisor).trans ?_)
    rw [h.withLimits, requireEven_even even, State.withDevice_number number]

/-! ## Autoload -/

/-- The next answers of the device: a status with a zero nibble and a byte, for each byte of the list. -/
structure Env.Delivers (e : Env) (vs : List Byte) : Prop where
  /-- The bytes. -/
  bytes : ∃ more, e.reads = vs ++ more
  /-- There is a status for each. -/
  enough : vs.length ≤ e.statuses.length
  /-- Their status nibbles are zero. -/
  clear : ∀ st ∈ e.statuses.take vs.length, statusNibble st = 0

/-- The device after one status and one byte. -/
def State.received (s : State) (d : Byte) : State := (s.afterStatus d).afterRead d

theorem Env.Delivers.first {v : Byte} {vs : List Byte} (h : s.env.Delivers (v :: vs)) (d : Byte) :
    statusNibble s.statusAnswer = 0 ∧ (s.afterStatus d).readAnswer = v ∧ (s.received d).env.Delivers vs := by
  obtain ⟨⟨more, reads⟩, enough, clear⟩ := h
  have tail : (s.received d).env.statuses = s.env.statuses.tail := rfl
  cases statuses : s.env.statuses with
  | nil => simp [statuses] at enough
  | cons st sts =>
    rw [statuses] at enough clear tail
    refine ⟨?_, State.readAnswer_cons (s := s.afterStatus d) reads, ⟨more, ?_⟩, ?_, ?_⟩
    · simpa [State.statusAnswer, statuses] using clear st (by simp)
    · change s.env.reads.tail = _
      rw [reads]
      rfl
    · rw [tail]
      simpa using enough
    · intro w hw
      rw [tail] at hw
      exact clear w (List.mem_cons_of_mem _ hw)

/-- A leading zero is dropped. -/
theorem State.autoloaded_zero {vs : List Byte} (h : s.env.Delivers (0 :: vs)) (d : Byte) (last : Half) (n : Nat) (a : Half) :
    State.autoloaded d last (n + 1) true a s = State.autoloaded d last n true a (s.received d) := by
  obtain ⟨clear, byte, -⟩ := h.first d
  simp only [State.autoloaded, clear, byte, ne_eq, not_true_eq_false, if_false, decide_true, Bool.and_self, if_true]
  rfl

/-- Any other byte is stored, the last one ending the loop. -/
theorem State.autoloaded_byte {v : Byte} {vs : List Byte} (h : s.env.Delivers (v :: vs)) {leader : Bool}
    (stored : leader = true → v ≠ 0) (d : Byte) (last : Half) (n : Nat) (a : Half) :
    State.autoloaded d last (n + 1) leader a s =
      if a = last then ((s.received d).setByte 0 a v).setCC (CC.ofBits 0)
      else State.autoloaded d last n false (a + 1) ((s.received d).setByte 0 a v) := by
  obtain ⟨clear, byte, -⟩ := h.first d
  have kept : (leader && decide (v = 0)) = false := by
    cases leader with
    | false => rfl
    | true => simpa using stored rfl
  simp only [State.autoloaded, clear, byte, ne_eq, not_true_eq_false, if_false, kept, Bool.false_eq_true]
  rfl

/-- The bytes of the area, once one is stored. -/
theorem State.autoloaded_data (d : Byte) (last : Half) {vs : List Byte} {v : Byte} {n : Nat} {leader : Bool} {a : Half}
    {s : State} (h : s.env.Delivers (v :: vs)) (stored : leader = true → v ≠ 0) (span : a.toNat + vs.length = last.toNat)
    (enough : vs.length < n) :
    BytesAt (State.autoloaded d last n leader a s) 0 a (v :: vs) ∧
      (∀ c : Half, c.toNat < a.toNat → (State.autoloaded d last n leader a s).byteAt 0 c = s.byteAt 0 c) ∧
      (State.autoloaded d last n leader a s).psw.cc.bits = 0 ∧
      (State.autoloaded d last n leader a s).env.calls = readBlockCalls d (vs.length + 1) ++ s.env.calls := by
  induction vs generalizing v n leader a s with
  | nil =>
    obtain ⟨n, rfl⟩ : ∃ m, n = m + 1 := ⟨n - 1, by omega⟩
    obtain rfl : a = last := BitVec.eq_of_toNat_eq (by simpa using span)
    rw [State.autoloaded_byte h stored, if_pos rfl]
    refine ⟨fun j hj => ?_, fun c below => ?_, CC.bits_ofBits 0, rfl⟩
    · obtain rfl : j = 0 := by simpa using hj
      simp
    · rw [setCC_byteAt, State.byteAt_setByte_other _ _ (by rintro ⟨-, rfl⟩; omega)]
      rfl
  | cons w vs ih =>
    obtain ⟨n, rfl⟩ : ∃ m, n = m + 1 := ⟨n - 1, by omega⟩
    rw [List.length_cons] at span enough ⊢
    have more : a ≠ last := by rintro rfl; omega
    have next : (a + 1).toNat = a.toNat + 1 := by have := last.isLt; bv_omega
    obtain ⟨bytes, below, cc, calls⟩ := ih (n := n) (leader := false) (a := a + 1) (s := (s.received d).setByte 0 a v)
      (h.first d).2.2 (by simp) (by omega) (by omega)
    rw [State.autoloaded_byte h stored, if_neg more]
    refine ⟨fun j hj => ?_, fun c hc => ?_, cc, ?_⟩
    · cases j with
      | zero => simpa using below a (by omega)
      | succ j =>
        rw [show a + BitVec.ofNat 16 (j + 1) = a + 1 + BitVec.ofNat 16 j by bv_omega]
        exact bytes j (by simpa using hj)
    · rw [below c (by omega), State.byteAt_setByte_other _ _ (by rintro ⟨-, rfl⟩; omega)]
      rfl
    · rw [calls, ← readBlockCalls_first d (vs.length + 1)]
      simp only [List.append_assoc]
      rfl

/-- Leading zeros, then the bytes of the area. -/
theorem State.autoloaded_leader (d : Byte) (last : Half) {vs : List Byte} {v : Byte} (lead : Nat) {n : Nat} {a : Half}
    {s : State} (h : s.env.Delivers (List.replicate lead 0 ++ v :: vs)) (nonzero : v ≠ 0)
    (span : a.toNat + vs.length = last.toNat) (enough : lead + vs.length < n) :
    BytesAt (State.autoloaded d last n true a s) 0 a (v :: vs) ∧ (State.autoloaded d last n true a s).psw.cc.bits = 0 ∧
      (State.autoloaded d last n true a s).env.calls = readBlockCalls d (lead + (vs.length + 1)) ++ s.env.calls := by
  induction lead generalizing n s with
  | zero =>
    obtain ⟨bytes, -, cc, calls⟩ := State.autoloaded_data d last (n := n) (leader := true) h (fun _ => nonzero) span (by omega)
    exact ⟨bytes, cc, by rwa [Nat.zero_add]⟩
  | succ lead ih =>
    obtain ⟨n, rfl⟩ : ∃ m, n = m + 1 := ⟨n - 1, by omega⟩
    obtain ⟨bytes, cc, calls⟩ := ih (n := n) (s := s.received d) (h.first d).2.2 (by omega)
    rw [State.autoloaded_zero h]
    refine ⟨bytes, cc, ?_⟩
    rw [calls, show lead + 1 + (vs.length + 1) = lead + (vs.length + 1) + 1 by omega,
      ← readBlockCalls_first d (lead + (vs.length + 1))]
    simp only [List.append_assoc]
    rfl

/-- What Autoload leaves alone: all but its area, flags and the queues, with no calls but for statuses and bytes. -/
structure AutoloadFrame (d : Byte) (first last : Half) (s u : State) : Prop where
  /-- The location counter is as before. -/
  loc : u.psw.LOC = s.psw.LOC
  /-- The frame of the area. -/
  frame : DeviceFrame [] 0 first (last.toNat + 1 - first.toNat) s u
  /-- The calls. -/
  calls : ∃ l : List DevCall, u.env.calls = l ++ s.env.calls ∧ ∀ c ∈ l, c = .status d ∨ c = .read d

theorem AutoloadFrame.ended (d : Byte) (first last : Half) (s : State) :
    AutoloadFrame d first last s ((s.afterStatus d).setStatusCC s.statusAnswer) :=
  ⟨rfl, ((DeviceFrame.refl ..).afterStatus d).setCC _, [.status d], rfl, by simp⟩

theorem AutoloadFrame.received (d : Byte) (first last : Half) (s : State) :
    AutoloadFrame d first last s (s.received d) :=
  ⟨rfl, ((DeviceFrame.refl ..).afterStatus d).afterRead d, [.read d, .status d], rfl, by simp⟩

theorem AutoloadFrame.setByte {first : Half} {u : State} (h : AutoloadFrame d first last s u) {a : Half}
    (low : first.toNat ≤ a.toNat) (high : a.toNat ≤ last.toNat) (v : Byte) :
    AutoloadFrame d first last s (u.setByte 0 a v) :=
  ⟨h.loc, h.frame.setByte v ⟨rfl, by bv_omega⟩, h.calls⟩

theorem AutoloadFrame.setCC {first : Half} {u : State} (h : AutoloadFrame d first last s u) (c : CC) :
    AutoloadFrame d first last s (u.setCC c) := ⟨h.loc, h.frame.setCC c, h.calls⟩

theorem AutoloadFrame.trans {first : Half} {u : State} (h : AutoloadFrame d first last s t)
    (k : AutoloadFrame d first last t u) : AutoloadFrame d first last s u := by
  obtain ⟨l, calls, only⟩ := h.calls
  obtain ⟨l', calls', only'⟩ := k.calls
  refine ⟨k.loc.trans h.loc, h.frame.trans k.frame, l' ++ l, by rw [calls', calls, List.append_assoc], fun c hc => ?_⟩
  exact (List.mem_append.1 hc).elim (only' c) (only c)

/-- Autoload keeps to its frame on every answer. -/
theorem State.autoloaded_frame (d : Byte) (first last : Half) (n : Nat) (leader : Bool) {a : Half} (s : State)
    (low : first.toNat ≤ a.toNat) (high : a.toNat ≤ last.toNat) :
    AutoloadFrame d first last s (State.autoloaded d last n leader a s) := by
  induction n generalizing leader a s with
  | zero => exact .ended d first last s
  | succ n ih =>
    have received := AutoloadFrame.received d first last s
    have stored := received.setByte low high (s.afterStatus d).readAnswer
    simp only [State.autoloaded]
    split_ifs with nibble zero final
    · exact .ended d first last s
    · exact received.trans (ih true (s.received d) low high)
    · exact stored.setCC _
    · have more : a.toNat ≠ last.toNat := fun e => final (BitVec.eq_of_toNat_eq e)
      exact stored.trans (ih false _ (by bv_omega) (by bv_omega))

theorem Undisturbed.exec_al (h : Undisturbed s) (supervisor : s.psw.control.PM = false) (bank : s.psw.OB = 0) {x2 : RegNo}
    {a2 : Half} (range : 0x80 ≤ (s.ea x2 a2).toNat) : exec (.al 0 x2 a2) s =
      s.selected (s.byteAt 0 0x0078) (timedOut 4) fun v => State.autoload (s.byteAt 0 0x0078) (s.ea x2 a2)
        v.env.statuses.length true 0x0080 (v.afterCommand (s.byteAt 0 0x0078) (s.byteAt 0 0x0079)) := by
  refine (exec_supervisor rfl supervisor).trans ?_
  rw [require_holds rfl, decide_eq_true bank, decide_eq_true range, Bool.and_self, require_true, h.readByte, h.readByte]

/-- Settles O42: AL comes to its loop, after the address and the command. -/
theorem autoload : Obligations.Autoload := by
  intro s x2 a2 h supervisor bank range n d before
  have al := h.exec_al supervisor bank range
  refine ⟨timesOut_plain al, fun answers => ?_⟩
  generalize started : (s.afterSelect d).afterCommand d (s.byteAt 0 0x0079) = t
  have ready : Undisturbed t := by rw [← started]; simpa using h
  have done : exec (.al 0 x2 a2) s =
      .next ((State.autoloaded d (s.ea x2 a2) s.env.statuses.length true 0x0080 t).advance 4) := by
    rw [exec_sync al answers, ← ready.autoload, ← started]
    rfl
  have calls : t.env.calls = before := by rw [← started]; rfl
  have loc : t.psw.LOC = s.psw.LOC := by rw [← started]; rfl
  have frame : DeviceFrame [] 0 0x0080 n s t := by
    rw [← started]
    exact (DeviceFrame.afterSelect ..).afterCommand ..
  refine ⟨⟨_, done, ?_⟩, fun lead b data more nonzero fills reads enough clear => ⟨_, done, ?_⟩⟩
  · obtain ⟨loc', frame', l, calls', only⟩ := State.autoloaded_frame d 0x0080 (s.ea x2 a2) s.env.statuses.length true
      (a := 0x0080) t (le_refl _) range
    exact ⟨congrArg (· + 4) (loc'.trans loc), (frame.trans frame').advance 4, l, by rw [← calls]; exact calls', only⟩
  · have length : (List.replicate lead 0 ++ b :: data).length = lead + n := by simp [← fills]
    have delivers : t.env.Delivers (List.replicate lead 0 ++ b :: data) := by
      rw [← started]
      refine ⟨⟨more, ?_⟩, ?_, ?_⟩
      · change s.env.reads = _
        rw [reads, List.append_assoc]
      · rw [length]
        exact enough
      · rw [length]
        exact clear
    obtain ⟨bytes, cc, calls'⟩ := State.autoloaded_leader d (s.ea x2 a2) lead (n := s.env.statuses.length) (a := 0x0080)
      delivers nonzero (by change 0x80 + data.length = _; omega) (by omega)
    refine ⟨bytes, cc, ?_⟩
    rw [← fills, ← calls]
    exact calls'

end Sys2Proof.Machine
end

section
/-! SUPPORT. Sequences of list instructions (49_list_trig_augment.md rule R365): the conditions of a list are kept, and
what is added comes back. -/

namespace Sys2Proof.Machine

/-! ## Slots before and after -/

section
variable {n i : Byte}

theorem slotBefore_toNat (h : i.toNat < n.toNat) :
    (slotBefore n i).toNat = if i = 0 then n.toNat - 1 else i.toNat - 1 := by
  unfold slotBefore
  split_ifs <;> bv_omega

theorem slotAfter_toNat (h : i.toNat < n.toNat) : (slotAfter n i).toNat = if i = n - 1 then 0 else i.toNat + 1 := by
  unfold slotAfter
  split_ifs <;> bv_omega

theorem slotBefore_lt (h : i.toNat < n.toNat) : (slotBefore n i).toNat < n.toNat := by
  rw [slotBefore_toNat h]
  split_ifs <;> omega

theorem slotAfter_lt (h : i.toNat < n.toNat) : (slotAfter n i).toNat < n.toNat := by
  rw [slotAfter_toNat h]
  split_ifs <;> bv_omega

theorem slotAfter_slotBefore (h : i.toNat < n.toNat) : slotAfter n (slotBefore n i) = i := by
  by_cases first : i = 0
  · rw [slotBefore, if_pos first, slotAfter, if_pos rfl, first]
  · have apart : i - 1 ≠ n - 1 := by bv_omega
    rw [slotBefore, if_neg first, slotAfter, if_neg apart, BitVec.sub_add_cancel]

theorem slotBefore_slotAfter (h : i.toNat < n.toNat) : slotBefore n (slotAfter n i) = i := by
  by_cases last : i = n - 1
  · rw [slotAfter, if_pos last, slotBefore, if_pos rfl, last]
  · have inside : i + 1 ≠ 0 := by bv_omega
    rw [slotAfter, if_neg last, slotBefore, if_neg inside, BitVec.add_sub_cancel]

end

/-! ## The condition on the pointers -/

section
variable {n used top bot : Byte}

/-- Moving the top pointer back lengthens the way from it to the bottom pointer by one. -/
theorem distance_slotBefore_top (htop : top.toNat < n.toNat) (hbot : bot.toNat < n.toNat) :
    bot.toNat + n.toNat - (slotBefore n top).toNat ≡ bot.toNat + n.toNat - top.toNat + 1 [MOD n.toNat] := by
  rw [slotBefore_toNat htop]
  split_ifs with first
  · have wrap : bot.toNat + n.toNat - top.toNat + 1 = bot.toNat + n.toNat - (n.toNat - 1) + n.toNat := by
      have zero : top.toNat = 0 := by rw [first]; rfl
      omega
    rw [wrap]
    exact Nat.add_modEq_right.symm
  · have step : bot.toNat + n.toNat - (top.toNat - 1) = bot.toNat + n.toNat - top.toNat + 1 := by bv_omega
    rw [step]

/-- Moving the bottom pointer on lengthens it by one. -/
theorem distance_slotAfter_bot (htop : top.toNat < n.toNat) (hbot : bot.toNat < n.toNat) :
    (slotAfter n bot).toNat + n.toNat - top.toNat ≡ bot.toNat + n.toNat - top.toNat + 1 [MOD n.toNat] := by
  rw [slotAfter_toNat hbot]
  split_ifs with last
  · have wrap : bot.toNat + n.toNat - top.toNat + 1 = 0 + n.toNat - top.toNat + n.toNat := by bv_omega
    rw [wrap]
    exact Nat.add_modEq_right.symm
  · have step : bot.toNat + 1 + n.toNat - top.toNat = bot.toNat + n.toNat - top.toNat + 1 := by omega
    rw [step]

theorem ListAgrees.add {top' bot' : Byte} (h : ListAgrees n used top bot) (room : used.toNat < n.toNat)
    (distance : bot'.toNat + n.toNat - top'.toNat ≡ bot.toNat + n.toNat - top.toNat + 1 [MOD n.toNat]) :
    ListAgrees n (used + 1) top' bot' := by
  have tally : (used + 1).toNat = used.toNat + 1 := by bv_omega
  unfold ListAgrees
  rw [tally]
  exact distance.trans (Nat.ModEq.add_right 1 h)

theorem ListAgrees.remove {top' bot' : Byte} (h : ListAgrees n used top bot) (held : used ≠ 0)
    (distance : bot.toNat + n.toNat - top.toNat ≡ bot'.toNat + n.toNat - top'.toNat + 1 [MOD n.toNat]) :
    ListAgrees n (used - 1) top' bot' := by
  have tally : used.toNat = (used - 1).toNat + 1 := by bv_omega
  refine Nat.ModEq.add_right_cancel' 1 (distance.symm.trans ?_)
  rw [← tally]
  exact h

end

/-! ## Lists after an instruction -/

section
variable {s t : State} {r1 : RegNo} {a slot : Half} {n used top bot : Byte}

theorem Header.listAt (header : Header t s.psw.OB a n used top bot) (modes : SameModes s t) (even : EvenAddress a)
    (fits : used.toNat ≤ n.toNat) (pointers : top.toNat < n.toNat ∧ bot.toNat < n.toNat) :
    ListAt t a n used top bot := by
  obtain ⟨-, -, bank⟩ := modes
  obtain ⟨slots, tally, topmost, bottom⟩ := header
  exact ⟨even, bank ▸ slots, bank ▸ tally, bank ▸ topmost, bank ▸ bottom, fits, fun _ => pointers⟩

theorem ListAt.room (h : ListAt s a n used top bot) (room : used ≠ n) : used.toNat < n.toNat :=
  lt_of_le_of_ne h.tallyFits fun e => room (BitVec.eq_of_toNat_eq e)

theorem ElementAdded.listAt (added : ElementAdded s r1 a n (used + 1) top bot slot t) (even : EvenAddress a)
    (room : used.toNat < n.toNat) (pointers : top.toNat < n.toNat ∧ bot.toNat < n.toNat) :
    ListAt t a n (used + 1) top bot := by
  obtain ⟨header, -, -, -, -, modes, -⟩ := added
  exact header.listAt modes even (by bv_omega) pointers

theorem ElementRemoved.listAt (removed : ElementRemoved s r1 a n used top bot slot t) (even : EvenAddress a)
    (held : used ≠ 0) (fits : used.toNat ≤ n.toNat) (pointers : top.toNat < n.toNat ∧ bot.toNat < n.toNat) :
    ListAt t a n (used - 1) top bot := by
  obtain ⟨header, -, -, -, -, modes, -⟩ := removed
  exact header.listAt modes even (by bv_omega) pointers

theorem completes_of_listFlagged {i : Instr} (h : exec i s = listFlagged s) (list : ListAt s a n used top bot)
    (agrees : ListAgrees n used top bot) :
    Completes i s fun t => ∃ used' top' bot', ListAt t a n used' top' bot' ∧ ListAgrees n used' top' bot' :=
  ⟨_, h, used, top, bot, ⟨list.even, list.slots, list.tally, list.topPointer, list.bottomPointer, list.tallyFits,
    list.pointersFit⟩, agrees⟩

end

/-- Settles O15: each instruction leaves the list alone or moves one pointer and the tally together. -/
theorem listsKeepTheirInvariant : Obligations.ListsKeepTheirInvariant := by
  intro s r1 x2 a2 n used top bot hu h agrees
  refine List.forall_mem_cons.2 ⟨?atl, List.forall_mem_cons.2 ⟨?abl, List.forall_mem_cons.2 ⟨?rtl,
    List.forall_mem_singleton.2 ?rbl⟩⟩⟩
  case atl =>
    by_cases full : used = n
    · exact completes_of_listFlagged ((hu.exec_atl h r1).trans (if_pos full)) h agrees
    · obtain ⟨htop, hbot⟩ := h.pointers (.inl full)
      obtain ⟨t, steps, added⟩ := hu.atl_adds h full r1
      exact ⟨t, steps, _, _, _, added.listAt h.even (h.room full) ⟨slotBefore_lt htop, hbot⟩,
        agrees.add (h.room full) (distance_slotBefore_top htop hbot)⟩
  case abl =>
    by_cases full : used = n
    · exact completes_of_listFlagged ((hu.exec_abl h r1).trans (if_pos full)) h agrees
    · obtain ⟨htop, hbot⟩ := h.pointers (.inl full)
      obtain ⟨t, steps, added⟩ := hu.abl_adds h full r1
      exact ⟨t, steps, _, _, _, added.listAt h.even (h.room full) ⟨htop, slotAfter_lt hbot⟩,
        agrees.add (h.room full) (distance_slotAfter_bot htop hbot)⟩
  case rtl =>
    by_cases empty : used = 0
    · exact completes_of_listFlagged ((hu.exec_rtl h r1).trans (if_pos empty)) h agrees
    · obtain ⟨htop, hbot⟩ := h.pointers (.inr empty)
      obtain ⟨t, steps, removed⟩ := hu.rtl_removes h empty r1
      have distance := distance_slotBefore_top (slotAfter_lt htop) hbot
      rw [slotBefore_slotAfter htop] at distance
      exact ⟨t, steps, _, _, _, removed.listAt h.even empty h.tallyFits ⟨slotAfter_lt htop, hbot⟩,
        agrees.remove empty distance⟩
  case rbl =>
    by_cases empty : used = 0
    · exact completes_of_listFlagged ((hu.exec_rbl h r1).trans (if_pos empty)) h agrees
    · obtain ⟨htop, hbot⟩ := h.pointers (.inr empty)
      obtain ⟨t, steps, removed⟩ := hu.rbl_removes h empty r1
      have distance := distance_slotAfter_bot htop (slotBefore_lt hbot)
      rw [slotAfter_slotBefore hbot] at distance
      exact ⟨t, steps, _, _, _, removed.listAt h.even empty h.tallyFits ⟨htop, slotBefore_lt hbot⟩,
        agrees.remove empty distance⟩

/-! ## An instruction after another -/

section
variable {s t : State} {r1 r2 x2 : RegNo} {a2 slot : Half} {n used top bot : Byte}

/-- Adding an element leaves the operand address as it was. -/
theorem ElementAdded.ea (added : ElementAdded s r1 (s.ea x2 a2) n used top bot slot t) : t.ea x2 a2 = s.ea x2 a2 := by
  obtain ⟨-, -, -, -, regs, -⟩ := added
  have same (r : RegNo) : t.reg r = s.reg r := regs r List.not_mem_nil
  simp only [State.ea, State.index, same]

theorem ElementAdded.undisturbed {a : Half} (added : ElementAdded s r1 a n used top bot slot t) (hu : Undisturbed s) :
    Undisturbed t := by
  obtain ⟨-, -, -, -, -, -, ⟨-, env, -, -, install⟩, -⟩ := added
  exact ⟨env ▸ hu.alone, install ▸ hu.fitted⟩

/-- RTL after an addition takes the element at the top pointer. -/
theorem ElementAdded.rtl (added : ElementAdded s r1 (s.ea x2 a2) n (used + 1) top bot slot t) (hu : Undisturbed s)
    (even : EvenAddress (s.ea x2 a2)) (room : used.toNat < n.toNat)
    (pointers : top.toNat < n.toNat ∧ bot.toNat < n.toNat) (r2 : RegNo) : Completes (.rtl r2 x2 a2) t fun u =>
      u.reg r2 = t.halfAt s.psw.OB (slotAddress (s.ea x2 a2) top) ∧
        Header u s.psw.OB (s.ea x2 a2) n used (slotAfter n top) bot := by
  have list := added.listAt even room pointers
  rw [← added.ea] at list
  obtain ⟨u, steps, header, element, -⟩ := (added.undisturbed hu).rtl_removes list (by bv_omega) r2
  obtain ⟨-, -, -, -, -, ⟨-, -, bank⟩, -⟩ := id added
  rw [BitVec.add_sub_cancel, added.ea, bank] at header
  rw [added.ea, bank] at element
  exact ⟨u, steps, element, header⟩

/-- RBL after an addition takes the element before the bottom pointer. -/
theorem ElementAdded.rbl (added : ElementAdded s r1 (s.ea x2 a2) n (used + 1) top bot slot t) (hu : Undisturbed s)
    (even : EvenAddress (s.ea x2 a2)) (room : used.toNat < n.toNat)
    (pointers : top.toNat < n.toNat ∧ bot.toNat < n.toNat) (r2 : RegNo) : Completes (.rbl r2 x2 a2) t fun u =>
      u.reg r2 = t.halfAt s.psw.OB (slotAddress (s.ea x2 a2) (slotBefore n bot)) ∧
        Header u s.psw.OB (s.ea x2 a2) n used top (slotBefore n bot) := by
  have list := added.listAt even room pointers
  rw [← added.ea] at list
  obtain ⟨u, steps, header, element, -⟩ := (added.undisturbed hu).rbl_removes list (by bv_omega) r2
  obtain ⟨-, -, -, -, -, ⟨-, -, bank⟩, -⟩ := id added
  rw [BitVec.add_sub_cancel, added.ea, bank] at header
  rw [added.ea, bank] at element
  exact ⟨u, steps, element, header⟩

/-- The element that has been added stands in its slot. -/
theorem ElementAdded.element {a : Half} (added : ElementAdded s r1 a n used top bot slot t) :
    t.halfAt s.psw.OB slot = s.reg r1 := added.2.1

/-- Every other slot is as before. -/
theorem ElementAdded.otherSlot {a : Half} {j k : Byte} (added : ElementAdded s r1 a n used top bot (slotAddress a k) t)
    (other : j ≠ k) : t.halfAt s.psw.OB (slotAddress a j) = s.halfAt s.psw.OB (slotAddress a j) := by
  obtain ⟨-, -, -, -, -, -, -, memory⟩ := added
  have apart (m : Half) (hm : m.toNat < 2) : ¬InSpan s.psw.OB (slotAddress a k) 2 s.psw.OB (slotAddress a j + m) := by
    rintro ⟨-, inside⟩
    rw [slotAddress_eq, slotAddress_eq] at inside
    bv_omega
  exact State.halfAt_congr
    (memory _ _ (by simpa using slot_outside_header _ a j (j := 0) (by decide)) (by simpa using apart 0 (by decide)))
    (memory _ _ (slot_outside_header _ a j (by decide)) (apart 1 (by decide)))

end

/-- Where a list holds some elements but not as many as it has slots, the pointers differ. -/
theorem ListAgrees.pointers_ne {n used top bot : Byte} (h : ListAgrees n used top bot) (held : used ≠ 0)
    (room : used.toNat < n.toNat) : top ≠ bot := by
  rintro rfl
  unfold ListAgrees at h
  rw [Nat.add_sub_cancel_left, Nat.mod_self, Nat.mod_eq_of_lt room] at h
  exact held (BitVec.eq_of_toNat_eq h.symm)

/-- Settles O44: the slot that the addition wrote, or the one at the top, is the one that the removal reads. -/
theorem listsReturnTheirElements : Obligations.ListsReturnTheirElements := by
  intro s t r1 r2 x2 a2 n used top bot hu h full
  obtain ⟨htop, hbot⟩ := h.pointers (.inl full)
  have room := h.room full
  have afterAtl (steps : exec (.atl r1 x2 a2) s = .next t) : ElementAdded s r1 (s.ea x2 a2) n (used + 1) (slotBefore n top)
      bot (slotAddress (s.ea x2 a2) (slotBefore n top)) t := by
    obtain ⟨u, steps', added⟩ := hu.atl_adds h full r1
    rw [steps] at steps'
    injection steps' with same
    exact same ▸ added
  have afterAbl (steps : exec (.abl r1 x2 a2) s = .next t) : ElementAdded s r1 (s.ea x2 a2) n (used + 1) top
      (slotAfter n bot) (slotAddress (s.ea x2 a2) bot) t := by
    obtain ⟨u, steps', added⟩ := hu.abl_adds h full r1
    rw [steps] at steps'
    injection steps' with same
    exact same ▸ added
  refine ⟨fun steps => ?_, fun steps => ?_, fun empty meet steps => ?_, fun held agrees steps => ?_⟩
  · have added := afterAtl steps
    have removed := added.rtl hu h.even room ⟨slotBefore_lt htop, hbot⟩ r2
    rwa [added.element, slotAfter_slotBefore htop] at removed
  · have added := afterAbl steps
    have removed := added.rbl hu h.even room ⟨htop, slotAfter_lt hbot⟩ r2
    rwa [slotBefore_slotAfter hbot, added.element] at removed
  · have added := afterAbl steps
    have removed := added.rtl hu h.even room ⟨htop, slotAfter_lt hbot⟩ r2
    rw [meet, added.element, empty] at removed
    rwa [meet]
  · have added := afterAbl steps
    have removed := added.rtl hu h.even room ⟨htop, slotAfter_lt hbot⟩ r2
    rwa [added.otherSlot (agrees.pointers_ne held room), slotAddress_eq] at removed

end Sys2Proof.Machine
end

section
/-! SUPPORT. The trigonometric option (49_list_trig_augment.md): the results and flags of its four operations, then the
instructions. -/

namespace Sys2Proof.Machine

variable {i : Instr} {s : State} {r1 : RegNo} {len : Half}

/-! ## Where the results go -/

theorem RegisterFrame.setPairs (r1 : RegNo) (v w : Full) (s : State) :
    RegisterFrame [r1, r1 + 1, r1 + 2, r1 + 3] s ((s.setPair r1 v).setPair (r1 + 2) w) := by
  have fourth : r1 + 2 + 1 = r1 + 3 := by bv_omega
  exact (RegisterFrame.setPair r1 v (by simp) (by simp) s).trans
    (RegisterFrame.setPair (r1 + 2) w (by simp) (by rw [fourth]; simp) _)

/-- V alone is said, and no register is written. -/
theorem completes_overflow (h : exec i s = .next ((s.setTrigCC true).advance len)) : Completes i s fun t =>
    t.psw.cc.V = true ∧ t.psw.LOC = s.psw.LOC + len ∧ RegisterFrame [] s t :=
  ⟨_, h, rfl, rfl, (RegisterFrame.refl [] s).afterFlags _ _ rfl rfl rfl⟩

/-- One result. -/
theorem completes_trigPair {v : Full} (h : exec i s = .next (((s.setPair r1 v).setTrigCC false).advance len)) :
    Completes i s fun t => t.pair r1 = v ∧ t.psw.cc.V = false ∧ t.psw.LOC = s.psw.LOC + len ∧
      RegisterFrame [r1, r1 + 1] s t :=
  ⟨_, h, State.pair_setPair_same s r1 v, rfl, rfl,
    (RegisterFrame.setPair r1 v (by simp) (by simp) s).afterFlags _ _ rfl rfl rfl⟩

/-- Two results. -/
theorem completes_trigPairs {v w : Full}
    (h : exec i s = .next ((((s.setPair r1 v).setPair (r1 + 2) w).setTrigCC false).advance len)) :
    Completes i s fun t => t.pair r1 = v ∧ t.pair (r1 + 2) = w ∧ t.psw.cc.V = false ∧ t.psw.LOC = s.psw.LOC + len ∧
      RegisterFrame [r1, r1 + 1, r1 + 2, r1 + 3] s t :=
  ⟨_, h, State.pair_setPair_next s r1 v w, State.pair_setPair_same _ (r1 + 2) w, rfl, rfl,
    (RegisterFrame.setPairs r1 v w s).afterFlags _ _ rfl rfl rfl⟩

theorem Completes.imp {p q : State → Prop} (h : Completes i s p) (weaker : ∀ t, p t → q t) : Completes i s q := by
  obtain ⟨t, steps, hp⟩ := h
  exact ⟨t, steps, weaker t hp⟩

/-! ## Cosine and sine -/

/-- What COS comes to: both results within their bounds, the flags as before. -/
theorem completes_cosine {angle : Full} (h : exec i s = cosine r1 angle len s) : Completes i s fun t =>
    (FixedWithin (t.pair r1) (fixedCosine angle.toNat) (cosineError s.cpr) ∧ InUnitRange (t.pair r1)) ∧
      (FixedWithin (t.pair (r1 + 2)) (fixedSine angle.toNat) (cosineError s.cpr) ∧ InUnitRange (t.pair (r1 + 2))) ∧
      t.psw.cc = s.psw.cc ∧ t.psw.LOC = s.psw.LOC + len ∧ RegisterFrame [r1, r1 + 1, r1 + 2, r1 + 3] s t := by
  have error := (cosineError_range s.cpr).1
  refine ⟨_, h, ?_, ?_, rfl, rfl, (RegisterFrame.setPairs r1 _ _ s).afterFlags _ _ rfl rfl rfl⟩
  · rw [State.advance_pair, State.pair_setPair_next]
    exact boundedFixed_within _ _ _ error (fixedCosine_range _)
  · rw [State.advance_pair, State.pair_setPair_same]
    exact boundedFixed_within _ _ _ error (fixedSine_range _)

/-! ## Arc tangent and root of a sum -/

section
variable {x y : Full}

theorem sumOfSquares_eq (x y : Full) : (sumOfSquares x y : Int) = x.toInt ^ 2 + y.toInt ^ 2 := by
  rw [sumOfSquares, ← sq, ← sq, Int.toNat_of_nonneg (by positivity)]

theorem toInt_ne_zero (h : x ≠ 0) : x.toInt ≠ 0 := fun e => h (BitVec.eq_of_toInt_eq (e.trans BitVec.toInt_zero.symm))

/-- Above the limit by more than the bound there is an overflow. -/
theorem arcTangentOverflows_above {p : Cpr} (h : ((0x7fffffff : Int) + cosineError p) ^ 2 < x.toInt ^ 2 + y.toInt ^ 2) :
    arcTangentOverflows x y p = true := by
  rw [sq ((0x7fffffff : Int) + cosineError p)] at h
  simp only [arcTangentOverflows, sumOfSquares_eq, decide_eq_true h, Bool.true_or]

/-- Below it by more than the bound there is none. -/
theorem arcTangentOverflows_below {p : Cpr} (h : x.toInt ^ 2 + y.toInt ^ 2 < ((0x7fffffff : Int) - cosineError p) ^ 2) :
    arcTangentOverflows x y p = false := by
  obtain ⟨-, small⟩ := cosineError_range p
  have wider : ((0x7fffffff : Int) - cosineError p) ^ 2 ≤ ((0x7fffffff : Int) + cosineError p) ^ 2 :=
    pow_le_pow_left₀ (by omega) (by omega) 2
  rw [sq ((0x7fffffff : Int) - _)] at h wider
  rw [sq ((0x7fffffff : Int) + _)] at wider
  simp only [arcTangentOverflows, sumOfSquares_eq, decide_eq_false (not_lt.2 (h.le.trans wider)),
    decide_eq_false (not_le.2 h), Bool.false_and, Bool.or_self]

/-- Without an overflow the sum of the squares is at most the limit and the bound, squared. -/
theorem sumOfSquares_le {p : Cpr} (h : arcTangentOverflows x y p = false) :
    sumOfSquares x y ≤ (0x7fffffff + cosineError p) * (0x7fffffff + cosineError p) := by
  have above := (Bool.or_eq_false_iff.1 h).1
  exact_mod_cast not_lt.1 (of_decide_eq_false above)

/-- What the arc tangent of `y/x` delivers where it does not overflow (rules R371, R377). -/
def ArcTangentDelivers (s : State) (r1 : RegNo) (x y : Full) (len : Half) (t : State) : Prop :=
  (x = 0 → (t.pair r1 - (if y.toInt < 0 then 0xc0000000 else 0x40000000)).toInt.natAbs ≤ arcTangentError s.cpr) ∧
    (x ≠ 0 → AngleWithin (t.pair r1) (if s.install.quadrant = .resolved ∧ x.toInt < 0 then 2 ^ 31 else 0)
      (tangentAtMost (if x.toInt < 0 then -y.toInt else y.toInt) x.toInt.natAbs)
      (tangentAtLeast (if x.toInt < 0 then -y.toInt else y.toInt) x.toInt.natAbs) (arcTangentError s.cpr)) ∧
    RootWithin (t.pair (r1 + 2)) (sumOfSquares x y) (cosineError s.cpr) ∧ t.psw.cc.V = false ∧
    t.psw.LOC = s.psw.LOC + len ∧ RegisterFrame [r1, r1 + 1, r1 + 2, r1 + 3] s t

theorem completes_arcTangent_zero (h : exec i s = arcTangent r1 x y len s) (hx : x = 0) (hy : y = 0) :
    Completes i s fun t => t.pair r1 = 0 ∧ t.pair (r1 + 2) = 0 ∧ t.psw.cc.V = false ∧ t.psw.LOC = s.psw.LOC + len ∧
      RegisterFrame [r1, r1 + 1, r1 + 2, r1 + 3] s t :=
  completes_trigPairs (h.trans (if_pos ⟨hx, hy⟩))

theorem completes_arcTangent_overflow (h : exec i s = arcTangent r1 x y len s)
    (overflows : arcTangentOverflows x y s.cpr = true) (nonzero : ¬(x = 0 ∧ y = 0)) : Completes i s fun t =>
      t.psw.cc.V = true ∧ t.psw.LOC = s.psw.LOC + len ∧ RegisterFrame [] s t :=
  completes_overflow (h.trans ((if_neg nonzero).trans (if_pos overflows)))

theorem completes_arcTangent_delivers (h : exec i s = arcTangent r1 x y len s)
    (fits : arcTangentOverflows x y s.cpr = false) (nonzero : ¬(x = 0 ∧ y = 0)) :
    Completes i s (ArcTangentDelivers s r1 x y len) := by
  obtain ⟨low, high⟩ := cosineError_range s.cpr
  have small : arcTangentError s.cpr < 2 ^ 30 := by cases s.cpr <;> decide
  have done := completes_trigPairs (h.trans ((if_neg nonzero).trans (if_neg (by rw [fits]; decide))))
  refine done.imp fun t ⟨angle, root, v, loc, frame⟩ => ⟨fun hx => ?_, fun hx => ?_, ?_, v, loc, frame⟩
  · rw [angle, hx]
    exact boundedArcTangent_right _ _ _ small
  · rw [angle]
    exact boundedArcTangent_within _ _ _ (toInt_ne_zero hx) (arcTangentError_range _)
  · rw [root]
    exact boundedRoot_within _ _ _ low (sumOfSquares_le fits) high

/-- Nothing that overflows is zero. -/
theorem squares_nonzero {p : Cpr} (h : ((0x7fffffff : Int) - cosineError p) ^ 2 ≤ x.toInt ^ 2 + y.toInt ^ 2) :
    ¬(x = 0 ∧ y = 0) := by
  rintro ⟨rfl, rfl⟩
  obtain ⟨-, small⟩ := cosineError_range p
  have positive : (0 : Int) < ((0x7fffffff : Int) - cosineError p) ^ 2 := pow_pos (by omega) 2
  have zero : (0 : Full).toInt = 0 := rfl
  rw [zero] at h
  omega

end

theorem requireQuadR2_quad {r2 : RegNo} (hr : QuadReg r2) (k : Outcome) : requireQuadR2 r2 k = k := by
  have within : r2.ule 12 = true := by simpa [BitVec.ule] using hr.2
  simp only [requireQuadR2, isEven_even hr.1, within, Bool.and_self, require_true]

/-- Settles O46: each form comes to the operation, whose results are held to their bounds. -/
theorem trigonometricResults : Obligations.TrigonometricResults := by
  intro s r1 r2 x2 a2 quad cosines tangents
  have tangent (i : Instr) (x y : Full) (len : Half) (h : exec i s = arcTangent r1 x y len s) : tangents i x y len := by
    refine ⟨completes_arcTangent_zero h, fun nonzero below => ?_, fun above => ?_, fun low high => ?_⟩
    · exact completes_arcTangent_delivers h (arcTangentOverflows_below below) nonzero
    · have overflows := arcTangentOverflows_above above
      refine completes_arcTangent_overflow h overflows (squares_nonzero (p := s.cpr) (le_trans ?_ above.le))
      obtain ⟨-, small⟩ := cosineError_range s.cpr
      exact pow_le_pow_left₀ (by omega) (by omega) 2
    · have nonzero := squares_nonzero low
      cases overflows : arcTangentOverflows x y s.cpr with
      | true => exact (completes_arcTangent_overflow h overflows nonzero).imp fun t => .inl
      | false => exact (completes_arcTangent_delivers h overflows nonzero).imp fun t => .inr
  refine ⟨fun even => ?_, fun hr => ?_, fun h even => ⟨?_, ?_⟩⟩
  · refine completes_cosine ((requireQuad_quad quad _).trans ?_)
    rw [isEven_even even, require_true]
  · exact tangent _ _ _ _ ((requireQuad_quad quad _).trans (requireQuadR2_quad hr _))
  · exact completes_cosine ((requireQuad_quad quad _).trans (h.fullOperand_even even _))
  · refine tangent _ _ _ _ ((requireQuad_quad quad _).trans ?_)
    rw [h.withScalars, requireEven_even even]

/-! ## Arc sine -/

section
variable {z y : Full}

theorem setsFlags_arcSine (h : exec i s = arcSine r1 z y len s)
    (fault : z.toInt.natAbs < y.toInt.natAbs ∨ (z = 0 ∧ y = 0)) : SetsFlags i s len fun c => c.V = true :=
  completes_overflow (h.trans (if_pos fault))

theorem completes_arcSine (h : exec i s = arcSine r1 z y len s)
    (fits : ¬(z.toInt.natAbs < y.toInt.natAbs ∨ (z = 0 ∧ y = 0))) : Completes i s fun t =>
      AngleWithin (t.pair r1) 0 (sineAtMost y.toInt z.toInt.natAbs) (sineAtLeast y.toInt z.toInt.natAbs)
          (arcSineError s.cpr) ∧
        InUnitRange (t.pair r1) ∧ t.psw.cc.V = false ∧ t.psw.LOC = s.psw.LOC + len ∧ RegisterFrame [r1, r1 + 1] s t := by
  refine (completes_trigPair (h.trans (if_neg fits))).imp fun t ⟨angle, rest⟩ => ?_
  rw [angle, ← and_assoc]
  exact ⟨boundedArcSine_within _ _ _ (arcSineError_range _), rest⟩

end

/-! ## Root of a difference -/

section
variable {x y : Full}

theorem setsFlags_rootOfDifference (h : exec i s = rootOfDifference r1 x y len s)
    (fault : x.toInt.natAbs < y.toInt.natAbs) : SetsFlags i s len fun c => c.V = true :=
  completes_overflow (h.trans (if_pos fault))

theorem differenceOfSquares_le (x y : Full) {e : Nat} (he : 1 ≤ e) :
    differenceOfSquares x y ≤ (0x7fffffff + e) * (0x7fffffff + e) := by
  have magnitude : x.toInt ^ 2 ≤ (2 ^ 31) ^ 2 := by
    have low := BitVec.le_toInt x
    have high := BitVec.toInt_lt (x := x)
    exact sq_le_sq' (by omega) (by omega)
  have other := sq_nonneg y.toInt
  have limit : (2 ^ 31) ^ 2 ≤ (0x7fffffff + e) ^ 2 := Nat.pow_le_pow_left (by omega) 2
  rw [← sq (0x7fffffff + e), differenceOfSquares, ← sq, ← sq]
  omega

theorem rootWithin_zero (e : Nat) : RootWithin 0 0 e := by
  have zero : (0 : Full).toInt = 0 := rfl
  refine ⟨?_, ?_, .inl ?_⟩ <;> rw [zero] <;> positivity

/-- What the root comes to, in both of its cases. -/
theorem completes_rootOfDifference (h : exec i s = rootOfDifference r1 x y len s)
    (fits : y.toInt.natAbs ≤ x.toInt.natAbs) : Completes i s fun t =>
      (x = y → t.pair r1 = 0) ∧ RootWithin (t.pair r1) (x.toInt ^ 2 - y.toInt ^ 2).toNat (differenceError s.cpr) ∧
        t.psw.cc.V = false ∧ t.psw.LOC = s.psw.LOC + len ∧ RegisterFrame [r1, r1 + 1] s t := by
  have fits' := h.trans (if_neg (not_lt.2 fits))
  by_cases equal : x = y
  · refine (completes_trigPair (fits'.trans (if_pos equal))).imp fun t ⟨root, rest⟩ => ⟨fun _ => root, ?_, rest⟩
    rw [root, equal, sub_self]
    exact rootWithin_zero _
  · obtain ⟨low, high⟩ := differenceError_range s.cpr
    refine (completes_trigPair (fits'.trans (if_neg equal))).imp fun t ⟨root, rest⟩ =>
      ⟨fun e => absurd e equal, ?_, rest⟩
    rw [root, sq, sq]
    exact boundedRoot_within _ _ _ low (differenceOfSquares_le x y low) high

end

/-- Settles O47: each form comes to the operation, whose result is held to its bound. -/
theorem arcSinesAndRoots : Obligations.ArcSinesAndRoots := by
  intro s r1 r2 x2 a2 even sines roots
  have sine (i : Instr) (z y : Full) (len : Half) (h : exec i s = arcSine r1 z y len s) : sines i z y len :=
    ⟨setsFlags_arcSine h, completes_arcSine h⟩
  have root (i : Instr) (x y : Full) (len : Half) (h : exec i s = rootOfDifference r1 x y len s) : roots i x y len :=
    ⟨setsFlags_rootOfDifference h, completes_rootOfDifference h⟩
  have scalars (h : Undisturbed s) (address : EvenAddress (s.ea x2 a2)) (k : Full → Full → State → Outcome) :
      requireR1Even r1 (s.withScalars x2 a2 k) =
        k (s.fullAt s.psw.OB (s.ea x2 a2)) (s.fullAt s.psw.OB (s.ea x2 a2 + 4)) s := by
    rw [requireR1Even_even even, h.withScalars, requireEven_even address]
  refine ⟨fun hr => ⟨?_, ?_⟩, fun h address => ⟨?_, ?_⟩⟩
  · exact sine _ _ _ _ ((requireR1Even_even even _).trans (requireQuadR2_quad hr _))
  · exact root _ _ _ _ ((requireR1Even_even even _).trans (requireQuadR2_quad hr _))
  · exact sine _ _ _ _ (scalars h address _)
  · exact root _ _ _ _ (scalars h address _)

end Sys2Proof.Machine
end

section
/-! SUPPORT. The unspecified operands (20_memory.md rule R69, 48_input_output.md rules R331, R353, 49_list_trig_augment.md
rule R360): each check comes before anything that could complete. -/

namespace Sys2Proof.Machine

variable {i : Instr} {s : State} {r1 r2 x2 : RegNo} {w : Half}

/-! ## Odd operand addresses -/

theorem exec_evenOperandSet (odd : (s.ea x2 w).getLsbD 0 = true) (member : i ∈ evenOperandSet r1 x2 w) :
    exec i s = .fault .oddOperandAddress := by
  unfold evenOperandSet at member
  fin_cases member <;> exact requireEven_odd odd _

theorem exec_evenPairSet (even : EvenReg r1) (odd : (s.ea x2 w).getLsbD 0 = true) (member : i ∈ evenPairSet r1 x2 w) :
    exec i s = .fault .oddOperandAddress := by
  unfold evenPairSet at member
  fin_cases member <;> exact (requireR1Even_even even _).trans (requireEven_odd odd _)

theorem exec_evenQuadSet (quad : QuadReg r1) (odd : (s.ea x2 w).getLsbD 0 = true) (member : i ∈ evenQuadSet r1 x2 w) :
    exec i s = .fault .oddOperandAddress := by
  unfold evenQuadSet at member
  fin_cases member <;> exact (requireQuad_quad quad _).trans (requireEven_odd odd _)

theorem exec_evenPrivilegedSet (supervisor : s.psw.control.PM = false) (odd : (s.ea x2 w).getLsbD 0 = true)
    (member : i ∈ evenPrivilegedSet r1 x2 w) : exec i s = .fault .oddOperandAddress := by
  unfold evenPrivilegedSet at member
  fin_cases member <;> exact (exec_supervisor rfl supervisor).trans (requireEven_odd odd _)

/-! ## Device numbers -/

/-- A nonzero high byte is no device number (rule R331). -/
theorem State.withDevice_high (high : 256 ≤ (s.reg r1).toNat) (k : Byte → Outcome) :
    s.withDevice r1 k = .refused .deviceNumberHighByte := by
  refine require_fails (fun zero => ?_) _ _
  have bits := congrArg BitVec.toNat zero
  have bound := (s.reg r1).isLt
  simp only [highByte, BitVec.extractLsb'_toNat, Nat.shiftRight_eq_div_pow] at bits
  change _ = 0 at bits
  omega

theorem exec_addressedSet (supervisor : s.psw.control.PM = false) (high : 256 ≤ (s.reg r1).toNat) (two : r2.toNat ≤ 14)
    (even : EvenAddress (s.ea x2 w)) : ∀ i ∈ addressedSet r1 r2 x2 w, exec i s = .refused .deviceNumberHighByte := by
  have atOnce {i : Instr} {k : Byte → Outcome} (h : exec i s = s.privileged (s.withDevice r1 k)) :
      exec i s = .refused .deviceNumberHighByte :=
    (exec_supervisor h supervisor).trans (State.withDevice_high high k)
  have afterAddress {i : Instr} {k : Byte → Outcome}
      (h : exec i s = s.privileged (requireEven (s.ea x2 w) (s.withDevice r1 k))) :
      exec i s = .refused .deviceNumberHighByte :=
    (exec_supervisor h supervisor).trans ((requireEven_even even _).trans (State.withDevice_high high k))
  have afterLimits {i : Instr} {k : Byte → Outcome}
      (h : exec i s = s.privileged (require (r2.ule 14) (.reservedRegister .R2) (s.withDevice r1 k))) :
      exec i s = .refused .deviceNumberHighByte := by
    have pair : r2.ule 14 = true := BitVec.ule_iff_toNat_le.2 two
    rw [exec_supervisor h supervisor, pair, require_true, State.withDevice_high high k]
  simp only [addressedSet, List.forall_mem_cons]
  exact ⟨atOnce rfl, atOnce rfl,  -- SSR, SS
    atOnce rfl, atOnce rfl,  -- OCR, OC
    atOnce rfl, atOnce rfl, atOnce rfl, atOnce rfl,  -- RDR, RD, WDR, WD
    atOnce rfl, afterAddress rfl, atOnce rfl, afterAddress rfl,  -- RHR, RH, WHR, WH
    afterLimits rfl, afterAddress rfl, afterLimits rfl, afterAddress rfl,  -- RBR, RB, WBR, WB
    List.forall_mem_nil _⟩

/-! ## List headers -/

/-- A header that the rules are not stated for (rule R360). -/
theorem ListHeader.not_consistent {n used top bot : Byte}
    (bad : n.toNat < used.toNat ∨ (n ≠ 0 ∧ (n.toNat ≤ top.toNat ∨ n.toNat ≤ bot.toNat))) :
    (ListHeader.mk n used top bot).consistent = false := by
  rw [Bool.eq_false_iff]
  intro consistent
  simp only [ListHeader.consistent, BitVec.ule, BitVec.ult, Bool.and_eq_true, Bool.or_eq_true, decide_eq_true_eq]
    at consistent
  obtain ⟨fits, pointers⟩ := consistent
  rcases bad with excess | ⟨slots, outside⟩
  · omega
  · obtain ⟨top', bot'⟩ := pointers.resolve_left slots
    omega

section
variable {n used top bot : Byte}

theorem Undisturbed.exec_listTop_refused (h : Undisturbed s) (even : EvenAddress (s.ea x2 w))
    (header : Header s s.psw.OB (s.ea x2 w) n used top bot) (bad : (ListHeader.mk n used top bot).consistent = false)
    {k : Half → ListHeader → State → Outcome} (e : exec i s = s.withListTop x2 w k) : exec i s = .refused .listHeader := by
  rw [e]
  obtain ⟨slots, tally, topmost, bottom⟩ := header
  simp only [State.withListTop, h.readByte, slots, tally, topmost, bottom, bad, requireEven_even even, require_false]

theorem Undisturbed.exec_listBottom_refused (h : Undisturbed s) (even : EvenAddress (s.ea x2 w))
    (header : Header s s.psw.OB (s.ea x2 w) n used top bot) (bad : (ListHeader.mk n used top bot).consistent = false)
    {k : Half → ListHeader → State → Outcome} (e : exec i s = s.withListBottom x2 w k) :
    exec i s = .refused .listHeader := by
  rw [e]
  obtain ⟨slots, tally, topmost, bottom⟩ := header
  simp only [State.withListBottom, h.readByte, slots, tally, topmost, bottom, bad, requireEven_even even, require_false]

end

/-- Settles O49: each instruction comes to the check that its operand fails. -/
theorem unspecifiedOperandsStop : Obligations.UnspecifiedOperandsStop := by
  intro s r1 r2 x2 w a
  refine ⟨fun uneven => ?_, fun supervisor high two even => exec_addressedSet supervisor high two even,
    fun supervisor range => ?_, fun h n used top bot even header bad => ?_⟩
  · have odd : (s.ea x2 w).getLsbD 0 = true := by simpa [EvenAddress] using uneven
    exact ⟨fun i => exec_evenOperandSet odd, fun even i => exec_evenPairSet even odd,
      fun quad i => exec_evenQuadSet quad odd, fun supervisor i => exec_evenPrivilegedSet supervisor odd⟩
  · have outside : (decide (s.psw.OB = 0) && decide (0x80 ≤ a.toNat)) = false := by
      rw [Bool.and_eq_false_iff, decide_eq_false_iff_not, decide_eq_false_iff_not, not_le]
      exact range
    refine (exec_supervisor rfl supervisor).trans ((require_holds rfl _ _).trans ?_)
    rw [outside, require_false]
  · have inconsistent := ListHeader.not_consistent bad
    exact List.forall_mem_cons.2 ⟨h.exec_listTop_refused even header inconsistent (by unfold exec execAtl; rfl),
      List.forall_mem_cons.2 ⟨h.exec_listBottom_refused even header inconsistent (by unfold exec execAbl; rfl),
        List.forall_mem_cons.2 ⟨h.exec_listTop_refused even header inconsistent (by unfold exec execRtl; rfl),
          List.forall_mem_singleton.2
            (h.exec_listBottom_refused even header inconsistent (by unfold exec execRbl; rfl))⟩⟩⟩

end Sys2Proof.Machine
end

section
/-! SUPPORT. Absent and read-only memory (20_memory.md rule R62), instruction by instruction: each comes to an access to the
bytes that are not there, or to stores that change nothing. -/

namespace Sys2Proof.Machine

variable {i : Instr} {s t : State} {r1 r2 x2 : RegNo} {w a : Half} {b : BankNo}

/-! ## Operands in absent memory -/

theorem State.withHalf_absent (even : EvenAddress a) (absent : Absent s b a 2) (k : Half → State → Outcome) :
    s.withHalf b a k = AbsentStop := (requireEven_even even _).trans (State.readHalf_absent absent k)

theorem State.withFull_absent (even : EvenAddress a) (absent : Absent s b a 4) (k : Full → State → Outcome) :
    s.withFull b a k = AbsentStop := (requireEven_even even _).trans (State.readFull_absent absent k)

theorem State.byteOperand_absent (absent : Absent s s.psw.OB (s.ea x2 w) 1) (k : Byte → State → Outcome) :
    s.byteOperand x2 w k = AbsentStop := State.readByte_absent absent k

theorem State.halfOperand_absent (even : EvenAddress (s.ea x2 w)) (absent : Absent s s.psw.OB (s.ea x2 w) 2)
    (k : Half → State → Outcome) : s.halfOperand x2 w k = AbsentStop := State.withHalf_absent even absent k

theorem State.fullOperand_absent (even : EvenAddress (s.ea x2 w)) (absent : Absent s s.psw.OB (s.ea x2 w) 4)
    (k : Full → State → Outcome) : s.fullOperand x2 w k = AbsentStop := State.withFull_absent even absent k

theorem storeToBank_absent (even : EvenAddress (s.ea x2 w)) (absent : Absent s b (s.ea x2 w) 2) :
    storeToBank b r1 x2 w s = AbsentStop := (requireEven_even even _).trans (State.writeHalf_absent absent _ _)

theorem State.withScalars_absent (even : EvenAddress (s.ea x2 w)) (absent : Absent s s.psw.OB (s.ea x2 w) 8)
    (k : Full → Full → State → Outcome) : s.withScalars x2 w k = AbsentStop := by
  refine (requireEven_even even _).trans ?_
  rcases (absent_add s s.psw.OB (s.ea x2 w) 4 4).1 absent with absent | absent
  · exact State.readFull_absent absent _
  · exact State.readFull_then fun _ t same => State.readFull_absent (absent.congr same) _

/-- ATL and RTL transfer the first three bytes of the header. -/
theorem State.withListTop_absent (even : EvenAddress (s.ea x2 w)) (absent : Absent s s.psw.OB (s.ea x2 w) 3)
    (k : Half → ListHeader → State → Outcome) : s.withListTop x2 w k = AbsentStop := by
  refine (requireEven_even even _).trans ?_
  rcases (absent_add s s.psw.OB (s.ea x2 w) 1 2).1 absent with slots | rest
  · exact State.readByte_absent slots _
  · refine State.readByte_then fun _ t same => ?_
    rcases (absent_add s s.psw.OB _ 1 1).1 rest with tally | top
    · exact State.readByte_absent (tally.congr same) _
    · refine State.readByte_then fun _ u same' => State.readByte_absent ?_ _
      rw [BitVec.add_assoc] at top
      exact top.congr (same'.trans same)

/-- ABL and RBL transfer the first two bytes of the header and the last. -/
theorem State.withListBottom_absent (even : EvenAddress (s.ea x2 w))
    (absent : Absent s s.psw.OB (s.ea x2 w) 2 ∨ Absent s s.psw.OB (s.ea x2 w + 3) 1)
    (k : Half → ListHeader → State → Outcome) : s.withListBottom x2 w k = AbsentStop := by
  refine (requireEven_even even _).trans ?_
  rcases absent with absent | bottom
  · rcases (absent_add s s.psw.OB (s.ea x2 w) 1 1).1 absent with slots | tally
    · exact State.readByte_absent slots _
    · exact State.readByte_then fun _ t same => State.readByte_absent (tally.congr same) _
  · exact State.readByte_then fun _ t same => State.readByte_then fun _ u same' =>
      State.readByte_absent (bottom.congr (same'.trans same)) _

theorem State.floatOperands_absent (even : EvenReg r1) (address : EvenAddress (s.ea x2 w))
    (absent : Absent s 0 (floatAddress r1) 4 ∨ Absent s s.psw.OB (s.ea x2 w) 4) (k : Full → Full → State → Outcome) :
    s.floatOperands r1 x2 w k = AbsentStop := by
  refine (requireR1Even_even even _).trans ((requireEven_even address _).trans ?_)
  rcases absent with register | operand
  · exact State.readFull_absent register _
  · exact State.readFull_then fun _ t same => State.readFull_absent (operand.congr same) _

theorem State.floatRegisters_absent (even : EvenReg r1) (even' : EvenReg r2) (absent : Absent s 0 (floatAddress r1) 4)
    (k : Full → Full → State → Outcome) : s.floatRegisters r1 r2 k = AbsentStop :=
  (requireEvenPair_even even even' _).trans (State.readFull_absent absent _)

/-- A load always writes its register. -/
theorem floatLoad_absent (absent : Absent s 0 (floatAddress r1) 4) (chart : FloatChart) (v : Full) (len : Half) :
    floatComplete chart r1 (floatLoad v) len s = AbsentStop := by
  have written : ∃ u, (floatLoad v).register = some u := by
    unfold floatLoad
    dsimp only
    split_ifs <;> exact ⟨_, rfl⟩
  obtain ⟨u, written⟩ := written
  rw [floatComplete, State.writeFloatResult, written]
  exact State.writeFull_absent absent _ _

theorem execSte_absent (even : EvenReg r1) (address : EvenAddress (s.ea x2 w))
    (absent : Absent s 0 (floatAddress r1) 4 ∨ Absent s s.psw.OB (s.ea x2 w) 4) : execSte r1 x2 w s = AbsentStop := by
  refine (requireR1Even_even even _).trans ((requireEven_even address _).trans ?_)
  rcases absent with register | operand
  · exact State.readFull_absent register _
  · exact State.readFull_then fun _ t same => State.writeFull_absent (operand.congr same) _ _

/-! ## Input/output and system control -/

/-- A device that delivers a byte to absent memory, answering or not. -/
theorem State.selected_absentByte {d : Byte} {len : Half} {sync : State → Outcome} (absent : Absent s b a 1)
    (stops : Absent (s.afterSelect d) b a 1 → sync (s.afterSelect d) = AbsentStop) :
    s.selected d (timedOutByte b a len) sync = AbsentStop := by
  have absent' : Absent (s.afterSelect d) b a 1 := absent.congr rfl
  cases answer : s.selectAnswer
  · exact (State.selected_late answer d _ _).trans (State.writeByte_absent absent' _ _)
  · exact (State.selected_sync answer d _ _).trans (stops absent')

/-- The same for a halfword. -/
theorem State.selected_absentHalf {d : Byte} {len : Half} {sync : State → Outcome} (absent : Absent s b a 2)
    (stops : Absent (s.afterSelect d) b a 2 → sync (s.afterSelect d) = AbsentStop) :
    s.selected d (timedOutHalf b a len) sync = AbsentStop := by
  have absent' : Absent (s.afterSelect d) b a 2 := absent.congr rfl
  cases answer : s.selectAnswer
  · exact (State.selected_late answer d _ _).trans (State.writeHalf_absent absent' _ _)
  · exact (State.selected_sync answer d _ _).trans (stops absent')

theorem exec_ai_absent (supervisor : s.psw.control.PM = false) (absent : Absent s s.psw.OB (s.ea x2 w) 1) :
    exec (.ai r1 x2 w) s = AbsentStop := by
  refine (exec_supervisor rfl supervisor).trans ?_
  split
  · exact State.writeByte_absent (s := s.afterAcknowledge.lateRegister r1) (absent.congr rfl) _ _
  · exact State.writeByte_absent (s := s.afterAcknowledge.setReg r1 _) (absent.congr rfl) _ _

/-- The limits of a block transfer in absent memory. -/
theorem State.withLimits_absent {d : Byte} (number : s.reg r1 = d.setWidth 16) (even : EvenAddress (s.ea x2 w))
    (absent : Absent s s.psw.OB (s.ea x2 w) 4) (k : Byte → Half → Half → State → Outcome) :
    s.withLimits r1 x2 w k = AbsentStop := by
  refine (requireEven_even even _).trans ((State.withDevice_number number _).trans ?_)
  rcases (absent_add s s.psw.OB (s.ea x2 w) 2 2).1 absent with start | last
  · exact State.readHalf_absent start _
  · exact State.readHalf_then fun _ t same => State.readHalf_absent (last.congr same) _

theorem exec_al_absent (supervisor : s.psw.control.PM = false) (bank : s.psw.OB = 0) (range : 0x80 ≤ (s.ea x2 w).toNat)
    (absent : Absent s 0 0x0078 2) : exec (.al 0 x2 w) s = AbsentStop := by
  have inside : (decide (s.psw.OB = 0) && decide (0x80 ≤ (s.ea x2 w).toNat)) = true := by
    rw [decide_eq_true bank, decide_eq_true range, Bool.and_self]
  refine (exec_supervisor rfl supervisor).trans ((require_holds rfl _ _).trans ?_)
  rw [inside, require_true]
  rcases (absent_add s 0 0x0078 1 1).1 absent with device | command
  · exact State.readByte_absent device _
  · exact State.readByte_then fun _ t same => State.readByte_absent (command.congr same) _

/-- A pointer of the Service Pointer table in absent memory. -/
theorem exec_sint_absent (supervisor : s.psw.control.PM = false)
    (absent : Absent s 0 (0x00d0 + 2 * (s.ea x2 w &&& 0x00ff)) 2) : exec (.sint 0 x2 w) s = AbsentStop := by
  rw [two_mul, ← setWidth_lowByte] at absent
  exact (exec_supervisor rfl supervisor).trans ((require_holds rfl _ _).trans (State.readHalf_absent absent _))

/-- The Protect Mode violation with an Old or New PSW in absent memory. -/
theorem exec_privilegedSet_absent (protect : s.psw.control.PM = true) (absent : Absent s 0 0x0030 8)
    (member : i ∈ privilegedSet r1 r2 w) : exec i s = AbsentStop := by
  obtain ⟨k, guarded⟩ := exec_eq_privileged member s
  exact (guarded.trans (State.privileged_protect protect k)).trans
    (State.exchange_absent (i := .protectMode) ((absent_add s 0 0x0030 4 4).1 absent) _ _)

/-- The locations of SVC in absent memory. -/
theorem exec_svc_absent
    (absent : Absent s 0 0x0094 8 ∨ Absent s 0 (0x009c + BitVec.ofNat 16 (2 * r1.toNat)) 2) :
    exec (.svc r1 x2 w) s = AbsentStop := by
  change execSvc r1 x2 w s = _
  unfold execSvc
  rcases absent with absent | entry
  · rcases (absent_add s 0 0x0094 2 6).1 absent with operand | rest
    · exact State.writeHalf_absent operand _ _
    · refine State.writeHalf_then fun t same => ?_
      rcases (absent_add s 0 _ 4 2).1 rest with old | status
      · exact State.writeFull_absent (old.congr same) _ _
      · exact State.writeFull_then fun u same' => State.readHalf_absent (status.congr (same'.trans same)) _
  · have place : (0x009c : Half) + BitVec.ofNat 16 (2 * r1.toNat) = 0x009c + (r1.setWidth 16 + r1.setWidth 16) := by
      bv_omega
    rw [place] at entry
    exact State.writeHalf_then fun t st => State.writeFull_then fun u su => State.readHalf_then fun _ v sv =>
      State.readHalf_absent (entry.congr ((sv.trans su).trans st)) _

/-! ## Read-only memory -/

/-- Memory that ignores writes is there. -/
theorem ReadOnly.hasHalf (h : ReadOnly s b a 2) : s.hasHalf b a = true := by
  obtain ⟨first, second⟩ := readOnly_add (m := 1) (n := 1) h
  exact Bool.and_eq_true_iff.2 ⟨first.byte.1, second.byte.1⟩

/-- A read of memory that is there, no other agent writing. -/
theorem State.readHalf_present (present : s.hasHalf b a = true) (alone : s.env.transfers = []) (k : Half → State → Outcome) :
    s.readHalf b a k = k (s.halfAt b a) s := by
  have same : s.transfer = s := by simp only [State.transfer, alone]
  rw [State.readHalf, present, same, require_true]

theorem State.hasHalf_of_not_absent (present : ¬Absent s b a 2) : s.hasHalf b a = true := by
  have each (k : Nat) (hk : k < 2) : isPresent s.install (physical b (a + BitVec.ofNat 16 k)) = true := by
    by_contra absent
    exact present ⟨k, hk, by simpa using absent⟩
  exact Bool.and_eq_true_iff.2 ⟨by simpa [State.hasByte] using each 0 (by decide), each 1 (by decide)⟩

theorem State.readFull_present (present : ¬Absent s b a 4) (alone : s.env.transfers = []) (k : Full → State → Outcome) :
    s.readFull b a k = k (s.fullAt b a) s := by
  have halves := (absent_add s b a 2 2).not.1 present
  rw [State.readFull, State.readHalf_present (State.hasHalf_of_not_absent fun h => halves (.inl h)) alone]
  exact State.readHalf_present (State.hasHalf_of_not_absent fun h => halves (.inr h)) alone _

theorem ReadOnly.storeToBank (h : ReadOnly s b (s.ea x2 w) 2) (alone : s.env.transfers = [])
    (even : EvenAddress (s.ea x2 w)) (e : exec i s = storeToBank b r1 x2 w s) : GoesTo i s (s.psw.LOC + 4) :=
  goesTo_of_advance (e.trans ((requireEven_even even _).trans (h.writeHalf alone _ _)))

/-- AHM then shows the sum all the same. -/
theorem ReadOnly.exec_ahm (h : ReadOnly s s.psw.OB (s.ea x2 w) 2) (alone : s.env.transfers = [])
    (even : EvenAddress (s.ea x2 w)) : exec (.ahm r1 x2 w) s =
      .next ((s.setCC (addN (s.reg r1) (s.halfAt s.psw.OB (s.ea x2 w)) false).cc).advance 4) :=
  (requireEven_even even _).trans ((State.readHalf_present h.hasHalf alone _).trans (h.writeHalf alone _ _))

theorem ReadOnly.exec_ste (h : ReadOnly s s.psw.OB (s.ea x2 w) 4) (alone : s.env.transfers = [])
    (even : EvenAddress (s.ea x2 w)) (evenReg : EvenReg r1) (present : ¬Absent s 0 (floatAddress r1) 4) :
    exec (.ste r1 x2 w) s = .next (s.advance 4) :=
  (requireR1Even_even evenReg _).trans ((requireEven_even even _).trans
    ((State.readFull_present present alone _).trans (h.writeFull alone _ _)))

/-! ## The instructions -/

/-- Each of these instructions comes to an access to absent memory. -/
def Stops (s : State) (is : List Instr) : Prop := ∀ i ∈ is, exec i s = AbsentStop

theorem stops_cons {is : List Instr} : Stops s (i :: is) ↔ exec i s = AbsentStop ∧ Stops s is := List.forall_mem_cons

theorem stops_nil : Stops s [] := List.forall_mem_nil _

theorem stops_bytes (absent : Absent s s.psw.OB (s.ea x2 w) 1) : Stops s [.lb r1 x2 w, .stb r1 x2 w, .clb r1 x2 w] := by
  simp only [stops_cons]
  change execLb r1 x2 w s = _ ∧ execStb r1 x2 w s = _ ∧ execClb r1 x2 w s = _ ∧ _
  exact ⟨State.byteOperand_absent absent _, State.writeByte_absent absent _ _, State.byteOperand_absent absent _, stops_nil⟩

theorem stops_halves (even : EvenAddress (s.ea x2 w)) (absent : Absent s s.psw.OB (s.ea x2 w) 2) :
    Stops s [.lh r1 x2 w, .sth r1 x2 w, .ah r1 x2 w, .ahm r1 x2 w, .ach r1 x2 w, .sh r1 x2 w, .sch r1 x2 w, .nh r1 x2 w,
      .oh r1 x2 w, .xh r1 x2 w, .clh r1 x2 w, .ch r1 x2 w, .lch r1 x2 w, .lcnh r1 x2 w, .lav r1 x2 w] := by
  have load {i : Instr} {k : Half → State → Outcome} (e : exec i s = s.halfOperand x2 w k) : exec i s = AbsentStop :=
    e.trans (State.halfOperand_absent even absent k)
  simp only [stops_cons]
  exact ⟨State.withHalf_absent even absent _, storeToBank_absent even absent, load rfl, load rfl, load rfl, load rfl,
    load rfl, load rfl, load rfl, load rfl, load rfl, load rfl, load rfl, load rfl, load rfl, stops_nil⟩

theorem stops_evenHalves (even : EvenAddress (s.ea x2 w)) (absent : Absent s s.psw.OB (s.ea x2 w) 2) (pair : EvenReg r1) :
    Stops s [.mh r1 x2 w, .mhu r1 x2 w, .dh r1 x2 w] := by
  have load {i : Instr} {k : Half → State → Outcome} (e : exec i s = requireR1Even r1 (s.halfOperand x2 w k)) :
      exec i s = AbsentStop := by
    rw [e, requireR1Even_even pair, State.halfOperand_absent even absent]
  simp only [stops_cons]
  exact ⟨load rfl, load rfl, load rfl, stops_nil⟩

theorem stops_multiples (even : EvenAddress (s.ea x2 w)) (absent : Absent s s.psw.OB (s.ea x2 w) (2 * (16 - r1.toNat))) :
    Stops s [.lm r1 x2 w, .stm r1 x2 w] :=
  stops_cons.2 ⟨(requireEven_even even _).trans (State.loadMultiple_absent _ r1 absent _),
    stops_cons.2 ⟨(requireEven_even even _).trans (State.storeMultiple_absent _ r1 absent _), stops_nil⟩⟩

theorem stops_fulls (even : EvenAddress (s.ea x2 w)) (absent : Absent s s.psw.OB (s.ea x2 w) 4) (pair : EvenReg r1) :
    Stops s [.ldp r1 x2 w, .stdp r1 x2 w, .adp r1 x2 w, .sdp r1 x2 w, .cldp r1 x2 w, .cdp r1 x2 w, .le r1 x2 w,
      .ste r1 x2 w, .ae r1 x2 w, .se r1 x2 w, .ce r1 x2 w, .me r1 x2 w, .de r1 x2 w] := by
  have load {i : Instr} {k : Full → State → Outcome} (e : exec i s = requireR1Even r1 (s.fullOperand x2 w k)) :
      exec i s = AbsentStop := by
    rw [e, requireR1Even_even pair, State.fullOperand_absent even absent]
  have float {i : Instr} {k : Full → Full → State → Outcome} (e : exec i s = s.floatOperands r1 x2 w k) :
      exec i s = AbsentStop := e.trans (State.floatOperands_absent pair even (.inr absent) k)
  have store : execStdp r1 x2 w s = AbsentStop :=
    (requireR1Even_even pair _).trans ((requireEven_even even _).trans (State.writeFull_absent absent _ _))
  simp only [stops_cons]
  exact ⟨load rfl, store, load rfl, load rfl, load rfl, load rfl, load rfl, execSte_absent pair even (.inr absent),
    float rfl, float rfl, float rfl, float rfl, float rfl, stops_nil⟩

theorem stops_quads (even : EvenAddress (s.ea x2 w)) (absent : Absent s s.psw.OB (s.ea x2 w) 4) (quad : QuadReg r1) :
    Stops s [.mdp r1 x2 w, .ddp r1 x2 w, .cos r1 x2 w] := by
  have load {i : Instr} {k : Full → State → Outcome} (e : exec i s = requireQuad r1 (s.fullOperand x2 w k)) :
      exec i s = AbsentStop := by
    rw [e, requireQuad_quad quad, State.fullOperand_absent even absent]
  simp only [stops_cons]
  exact ⟨load rfl, load rfl, load rfl, stops_nil⟩

theorem stops_scalars (even : EvenAddress (s.ea x2 w)) (absent : Absent s s.psw.OB (s.ea x2 w) 8) :
    (EvenReg r1 → Stops s [.asn r1 x2 w, .sqd r1 x2 w]) ∧ (QuadReg r1 → Stops s [.atn r1 x2 w]) :=
  ⟨fun pair => stops_cons.2 ⟨(requireR1Even_even pair _).trans (State.withScalars_absent even absent _),
    stops_cons.2 ⟨(requireR1Even_even pair _).trans (State.withScalars_absent even absent _), stops_nil⟩⟩,
    fun quad => stops_cons.2 ⟨(requireQuad_quad quad _).trans (State.withScalars_absent even absent _), stops_nil⟩⟩

theorem stops_listTops (even : EvenAddress (s.ea x2 w)) (absent : Absent s s.psw.OB (s.ea x2 w) 3) :
    Stops s [.atl r1 x2 w, .rtl r1 x2 w] := by
  simp only [stops_cons]
  change execAtl r1 x2 w s = _ ∧ execRtl r1 x2 w s = _ ∧ _
  exact ⟨State.withListTop_absent even absent _, State.withListTop_absent even absent _, stops_nil⟩

theorem stops_listBottoms (even : EvenAddress (s.ea x2 w))
    (absent : Absent s s.psw.OB (s.ea x2 w) 2 ∨ Absent s s.psw.OB (s.ea x2 w + 3) 1) :
    Stops s [.abl r1 x2 w, .rbl r1 x2 w] := by
  simp only [stops_cons]
  change execAbl r1 x2 w s = _ ∧ execRbl r1 x2 w s = _ ∧ _
  exact ⟨State.withListBottom_absent even absent _, State.withListBottom_absent even absent _, stops_nil⟩

theorem stops_floatRegisters (pair : EvenReg r1) (pair' : EvenReg r2) (absent : Absent s 0 (floatAddress r1) 4) :
    Stops s [.ler r1 r2, .aer r1 r2, .ser r1 r2, .cer r1 r2, .mer r1 r2, .der r1 r2] := by
  have load : execLer r1 r2 s = AbsentStop := (requireEvenPair_even pair pair' _).trans
    (State.readFull_then fun _ t same => floatLoad_absent (absent.congr same) ..)
  have float {i : Instr} {k : Full → Full → State → Outcome} (e : exec i s = s.floatRegisters r1 r2 k) :
      exec i s = AbsentStop := e.trans (State.floatRegisters_absent pair pair' absent k)
  simp only [stops_cons]
  exact ⟨load, float rfl, float rfl, float rfl, float rfl, float rfl, stops_nil⟩

theorem stops_floatOperands (pair : EvenReg r1) (even : EvenAddress (s.ea x2 w)) (absent : Absent s 0 (floatAddress r1) 4) :
    Stops s [.le r1 x2 w, .ste r1 x2 w, .ae r1 x2 w, .se r1 x2 w, .ce r1 x2 w, .me r1 x2 w, .de r1 x2 w] := by
  have load : execLe r1 x2 w s = AbsentStop := (requireR1Even_even pair _).trans ((requireEven_even even _).trans
    (State.readFull_then fun _ t same => floatLoad_absent (absent.congr same) ..))
  have float {i : Instr} {k : Full → Full → State → Outcome} (e : exec i s = s.floatOperands r1 x2 w k) :
      exec i s = AbsentStop := e.trans (State.floatOperands_absent pair even (.inl absent) k)
  simp only [stops_cons]
  exact ⟨load, execSte_absent pair even (.inl absent), float rfl, float rfl, float rfl, float rfl, float rfl, stops_nil⟩

section
variable {d : Byte}

theorem stops_deviceBytes (supervisor : s.psw.control.PM = false) (number : s.reg r1 = d.setWidth 16)
    (absent : Absent s s.psw.OB (s.ea x2 w) 1) : Stops s [.ss r1 x2 w, .oc r1 x2 w, .rd r1 x2 w, .wd r1 x2 w] := by
  have sensed {i : Instr} {sync : Byte → State → Outcome} (e : exec i s = s.privileged (s.withDevice r1 fun d =>
      s.selected d (timedOutByte s.psw.OB (s.ea x2 w) 4) (sync d)))
      (stops : Absent (s.afterSelect d) s.psw.OB (s.ea x2 w) 1 → sync d (s.afterSelect d) = AbsentStop) :
      exec i s = AbsentStop :=
    (exec_selected e supervisor number).trans (State.selected_absentByte absent stops)
  have sent {i : Instr} {k : Byte → Byte → State → Outcome}
      (e : exec i s = s.privileged (s.withDevice r1 fun d => s.byteOperand x2 w (k d))) : exec i s = AbsentStop :=
    (exec_addressed e supervisor number).trans (State.byteOperand_absent absent _)
  simp only [stops_cons]
  exact ⟨sensed rfl fun absent => State.writeByte_absent (s := (s.afterSelect d).afterStatus d) (absent.congr rfl) _ _,
    sent rfl, sensed rfl fun absent => State.writeByte_absent (s := (s.afterSelect d).afterRead d) (absent.congr rfl) _ _,
    sent rfl, stops_nil⟩

theorem stops_deviceHalves (supervisor : s.psw.control.PM = false) (number : s.reg r1 = d.setWidth 16)
    (even : EvenAddress (s.ea x2 w)) (absent : Absent s s.psw.OB (s.ea x2 w) 2) : Stops s [.rh r1 x2 w, .wh r1 x2 w] := by
  refine stops_cons.2 ⟨?_, stops_cons.2 ⟨?_, stops_nil⟩⟩
  · refine (exec_supervisor rfl supervisor).trans ((requireEven_even even _).trans
      ((State.withDevice_number number _).trans (State.selected_absentHalf absent fun absent => ?_)))
    exact State.writeHalf_absent (s := (s.afterSelect d).afterReadHalf d) (absent.congr rfl) _ _
  · exact (exec_supervisor rfl supervisor).trans ((requireEven_even even _).trans
      ((State.withDevice_number number _).trans (State.readHalf_absent absent _)))

theorem stops_blocks (supervisor : s.psw.control.PM = false) (number : s.reg r1 = d.setWidth 16)
    (even : EvenAddress (s.ea x2 w)) (absent : Absent s s.psw.OB (s.ea x2 w) 4) : Stops s [.rb r1 x2 w, .wb r1 x2 w] :=
  stops_cons.2 ⟨(exec_supervisor rfl supervisor).trans (State.withLimits_absent number even absent _),
    stops_cons.2 ⟨(exec_supervisor rfl supervisor).trans (State.withLimits_absent number even absent _), stops_nil⟩⟩

end

theorem stops_lpsw (supervisor : s.psw.control.PM = false) (even : EvenAddress (s.ea x2 w))
    (absent : Absent s s.psw.OB (s.ea x2 w) 4) : Stops s [.lpsw 0 x2 w] :=
  stops_cons.2 ⟨(exec_lpsw supervisor x2 w).trans ((requireEven_even even _).trans (State.readFull_absent absent _)),
    stops_nil⟩

theorem stops_bank (even : EvenAddress (s.ea x2 w)) {load store : Instr}
    (hl : exec load s = loadFromBank b r1 x2 w s) (hs : exec store s = storeToBank b r1 x2 w s)
    (absent : Absent s b (s.ea x2 w) 2) : Stops s [load, store] :=
  stops_cons.2 ⟨hl.trans (State.withHalf_absent even absent _),
    stops_cons.2 ⟨hs.trans (storeToBank_absent even absent), stops_nil⟩⟩

/-- Settles O13: each instruction comes to a transfer of the absent bytes, or to stores to the read-only ones. -/
theorem unfittedMemory : Obligations.UnfittedMemory := by
  intro s r1 r2 x2 w d a ob stop passes
  refine ⟨stops_bytes, fun even => ⟨fun absent => ⟨stops_halves even absent, stops_evenHalves even absent⟩,
      stops_bank even rfl rfl, stops_bank even rfl rfl, stops_bank even rfl rfl, stops_bank even rfl rfl,
      stops_multiples even, fun absent => ⟨stops_fulls even absent, stops_quads even absent⟩, stops_scalars even,
      stops_listTops even, stops_listBottoms even⟩,
    fun pair absent => ⟨fun pair' => stops_floatRegisters pair pair' absent,
      fun even => stops_floatOperands pair even absent⟩,
    fun supervisor => ⟨stops_lpsw supervisor, fun absent => stops_cons.2 ⟨exec_ai_absent supervisor absent, stops_nil⟩,
      fun number => ⟨stops_deviceBytes supervisor number, stops_deviceHalves supervisor number,
        stops_blocks supervisor number⟩,
      fun bank range absent => stops_cons.2 ⟨exec_al_absent supervisor bank range absent, stops_nil⟩,
      fun absent => stops_cons.2 ⟨exec_sint_absent supervisor absent, stops_nil⟩⟩,
    fun protect absent i => exec_privilegedSet_absent protect absent,
    fun absent => stops_cons.2 ⟨exec_svc_absent absent, stops_nil⟩, fun alone => ⟨fun byte => ?_, fun even => ?_⟩⟩
  · exact goesTo_of_advance (show execStb r1 x2 w s = _ from byte.writeByte alone _ _)
  · refine ⟨fun half => half.storeToBank alone even rfl,
      fun half => half.storeToBank alone even rfl, fun half => half.storeToBank alone even rfl,
      fun half => half.storeToBank alone even rfl, fun half => ⟨half.storeToBank alone even rfl, ?_⟩, fun multiple => ?_,
      fun pair full => ⟨?_, fun present => goesTo_of_advance (full.exec_ste alone even pair present)⟩⟩
    · exact ⟨_, half.exec_ahm alone even, showsSum_addN _ _ _, rfl, (RegisterFrame.refl [] s).afterFlags _ _ rfl rfl rfl⟩
    · exact goesTo_of_advance ((requireEven_even even _).trans (multiple.storeMultiple _ r1 _ alone _))
    · exact goesTo_of_advance ((requireR1Even_even pair _).trans
        ((requireEven_even even _).trans (full.writeFull alone _ _)))

end Sys2Proof.Machine
end
